-- ==== Sys2Proof/Word.lean ====
section
/-! DEFINITION. The word types of the engine: a host register and a command are 32-bit words, a wire byte and a
sensor register are 8 bits (spec/00_scope.md R7, R8, R9). The operators of R9 are `BitVec`'s own: `+`, `-`, `*` and
`<<<` wrap modulo 2^32, `BitVec.sshiftRight` is the arithmetic right shift, `>>>` the logical one, `/` the unsigned
division, `BitVec.slt` and `BitVec.ult` the comparisons, `signExtend` and `zeroExtend` the extensions. -/

namespace Sys2Proof

/-- A 32-bit word: a host register or a command word (R8). -/
abbrev Word := BitVec 32

/-- A byte: a sensor register or one transfer on the wire (R8). -/
abbrev Byte := BitVec 8

end Sys2Proof
end

