-- ==== Sys2Proof/Syntax.lean ====
section
/-! DEFINITION. The instructions: the eight commands of spec/opcode_table.json, one constructor each
(spec/30_encoding.md R101), with the two operands a command word can carry. -/

namespace Sys2Proof

/-- The ctrl_meas codes a command can select (R110). MSEL = 3 selects none, so no constructor stands for it. The names
are the source's labels, which R110 and conflict C9 say must not be read as what the sensor then measures. -/
inductive MeasSel where
  | temp       -- MSEL 0, byte 0x21, "temperature-only forced 1x"
  | tempHum    -- MSEL 1, byte 0x22, "temperature+humidity forced 1x"
  | tempPress  -- MSEL 2, byte 0x25, "temperature+pressure forced 1x"; THP only
  deriving DecidableEq, Repr, Inhabited

/-- The commands (R101). `h` is OSRS_H, any value 0 to 7 (R102); `m` is what MSEL selects (R110). -/
inductive Instr where
  | identify
  | configure (h : BitVec 3) (m : MeasSel)
  | loadCal
  | measure (h : BitVec 3) (m : MeasSel)
  | compT
  | compH
  | compP
  | cycle (h : BitVec 3) (m : MeasSel)
  deriving DecidableEq, Repr, Inhabited

end Sys2Proof
end

