-- ==== Sys2Proof/Machine/Interface.lean ====
section
/-! DEFINITION. The plain data exchanged between the agents of spec/00_scope.md R3: the events of the transport port, the
transport's answers, the host's accesses, whose turn it is, and the concrete sensor that spec/60_exceptions.md R345 and R346
allow a model to put behind the transport. -/

namespace Sys2Proof.Machine

/-- The three events the engine produces on the transport port (spec/40_register_protocol.md R147). -/
inductive PortEvent where
  | csAssert           -- beginTransaction: chip select asserted
  | xfer (out : Byte)  -- transferByte: one byte out, one byte back
  | csDeassert         -- endTransaction: chip select deasserted
  deriving DecidableEq, Repr, Inhabited

/-- The transport's answer to one transfer (R147). -/
inductive Answer where
  | byte (i : Byte)  -- the byte received, a draw
  | fault            -- the transport reports a transport fault
  | noAnswer         -- the transport does not answer
  deriving DecidableEq, Repr, Inhabited

/-- One access of the host (spec/20_memory.md R70). `wait` is the polling loop WAIT of spec/30_encoding.md R131: each of the
host's turns reads STATUS once more, until BUSY reads 0. -/
inductive HostOp where
  | read (off : BitVec 8)
  | write (off : BitVec 8) (v : Word)
  | wait
  deriving DecidableEq, Repr, Inhabited

/-- Who moves in a step: the host, the sequencer (R3, R76), the platform's reset (spec/70_reset_and_hazards.md R370), or the
end of a conversion of the concrete sensor with the counts it measured (R346; nothing where no sensor is attached). -/
inductive Turn where
  | host
  | sequencer
  | reset
  | converted (press temp : BitVec 20) (hum : BitVec 16)
  deriving DecidableEq, Repr, Inhabited

/-- Where the concrete sensor stands inside a frame (R346, spec/20_memory.md R82, R83). -/
inductive SensorFrame where
  | idle              -- chip select not asserted
  | control           -- the next byte is a control byte
  -- a read frame: the next byte sent back is register `a`, the data registers being those latched when the frame began
  | read (a : Byte) (press temp : BitVec 20) (hum : BitVec 16)
  | write (a : Byte)  -- a write pair: the next byte received goes to register `a`
  deriving DecidableEq, Repr, Inhabited

/-- A conversion a forced-mode write has triggered (spec/20_memory.md R85), with the oversampling codes its write put in force;
a code of 000 skips that quantity (R345). -/
structure Conversion where
  osrsT : BitVec 3
  osrsP : BitVec 3
  osrsH : BitVec 3
  deriving DecidableEq, Repr, Inhabited

/-- The concrete sensor of R345: its register map, held by content. -/
structure Sensor where
  calib     : List Byte   -- 0x88..0xA1, factory values
  calibTail : List Byte   -- 0xE1..0xF0, factory values
  ctrlHum   : BitVec 3    -- 0xF2, bits 2:0
  ctrlMeas  : Byte        -- 0xF4
  config    : Byte        -- 0xF5
  osrsH     : BitVec 3    -- the humidity oversampling in force: ctrl_hum as it was at the last ctrl_meas write (R85)
  measuring : List Conversion   -- the conversions triggered and not ended, the running one first: status (0xF3) bit 3
  press     : BitVec 20   -- 0xF7..0xF9
  temp      : BitVec 20   -- 0xFA..0xFC
  hum       : BitVec 16   -- 0xFD..0xFE
  frame     : SensorFrame
  deriving DecidableEq, Repr, Inhabited

end Sys2Proof.Machine
end

