-- ==== Sys2Proof/Config.lean ====
section
/-! DEFINITION. What an implementation fixes (spec/00_scope.md R6, R7) and the free values: the constants without a body
that stand for what the spec leaves to a draw. Nothing in Lean can evaluate a free value, so whatever is proved of it holds
for every value. -/

namespace Sys2Proof

/-- The two variants (R6): temperature and humidity, or temperature, humidity and pressure. -/
inductive Variant where
  | th
  | thp
  deriving DecidableEq, Repr, Inhabited

/-- The build parameters of R7 that change what the engine does; CAPS reports them (spec/10_state.md R31). The defaults are
the ones R7 gives. They are a field of State, so that every statement covers every build. -/
structure Params where
  variant       : Variant := .thp
  rewriteHum    : Bool := true
  idRetry       : Bool := false
  xferTimeoutEn : Bool := false
  h45Signed     : Bool := false
  deriving DecidableEq, Repr, Inhabited

/-- The transport's answer to a transfer for which no answer is placed and no sensor is attached: a draw of the model
(spec/40_register_protocol.md R147). The argument is the draw counter. Log entry 1. -/
opaque Config.freeAnswer : Nat → Machine.Answer

/-- Whose turn it is where no turn is placed: any interleaving is admitted (spec/20_memory.md R76). Log entry 2. -/
opaque Config.freeTurn : Nat → Machine.Turn

/-- The byte a sensor sends where R346 leaves it undefined (during a control byte or a write pair, or for a register
outside the map of R345). Log entry 4. -/
opaque Config.freeByte : Nat → Byte

/-- The sensor's state after a frame that a failed transfer cut short: any state
(spec/93_implementation_defined.md U10). Log entry 4. -/
opaque Config.sensorAfterFault : Nat → Machine.Sensor → Machine.Sensor

/-- HOST_BASE (R7, spec/20_memory.md R87): where the platform puts the host register space in the host CPU's addresses.
The platform's choice, so a free constant. Log entry 7. -/
opaque Config.hostBase : Nat

end Sys2Proof
end

