-- ==== Sys2Proof/Machine/State.lean ====
section
/-! DEFINITION. The state of the machine as plain data: the engine's host registers (spec/10_state.md R30-R49), the hidden
sequencer state (R50), and, in `Env`, what stands outside the engine. Contents are held at the width their rule gives; the
32-bit view a host sees is computed (Machine/HostAccess.lean). -/

namespace Sys2Proof.Machine

/-- STATUS.SESSION (R33, R34). -/
inductive Session where
  | uninit
  | idConfirmed
  | calLoaded
  | faulted
  deriving DecidableEq, Repr

/-- STATUS.CYCLE (R33, R35); code 3 is never produced. -/
inductive CycleState where
  | idle
  | inFlight
  | resultReady
  deriving DecidableEq, Repr

/-- The completion codes (spec/60_exceptions.md R320); 8 to 15 are never produced. -/
inductive Code where
  | ok
  | illegalCmd
  | badState
  | calNotLoaded
  | noRaw
  | noTfine
  | transport
  | deviceAbsent
  deriving DecidableEq, Repr

/-- PHASE (R50): where the sequencer is in the command lifecycle. -/
inductive Phase where
  | idle
  | check
  | run
  | commit
  deriving DecidableEq, Repr

/-- STATUS (R33). -/
structure Status where
  session    : Session
  cycle      : CycleState
  busy       : Bool
  rawValid   : Bool
  tfineValid : Bool
  tValid     : Bool
  hValid     : Bool
  pValid     : Bool
  configured : Bool
  pDenZero   : Bool
  lastErr    : Code
  deriving DecidableEq, Repr

/-- EVENTS (R41). -/
structure Events where
  done    : Bool
  err     : Bool
  overrun : Bool
  deriving DecidableEq, Repr

/-- The coefficient file (R48), each coefficient at its own width; the signed ones are two's complement. -/
structure Coeffs where
  t1 : BitVec 16   -- unsigned
  t2 : BitVec 16   -- signed
  t3 : BitVec 16   -- signed
  p1 : BitVec 16   -- unsigned
  p2 : BitVec 16   -- signed
  p3 : BitVec 16   -- signed
  p4 : BitVec 16   -- signed
  p5 : BitVec 16   -- signed
  p6 : BitVec 16   -- signed
  p7 : BitVec 16   -- signed
  p8 : BitVec 16   -- signed
  p9 : BitVec 16   -- signed
  h1 : BitVec 8    -- unsigned
  h2 : BitVec 16   -- signed
  h3 : BitVec 8    -- unsigned
  h4 : BitVec 16   -- signed, 12-bit range
  h5 : BitVec 16   -- signed, 12-bit range
  h6 : BitVec 8    -- signed
  deriving DecidableEq, Repr

/-- The data registers, the engine's register file (R42-R49, R52). -/
structure Regs where
  chipId  : Byte
  adcT    : BitVec 20
  adcP    : BitVec 20
  adcH    : BitVec 16
  tFine   : Word
  tOut    : Word
  hOut    : Word
  hQ10    : Word
  pOut    : Word
  dig     : Coeffs
  rawCal  : List Byte   -- byte k is sensor register 0x88 + k, 26 bytes (R49)
  rawTail : List Byte   -- byte k is sensor register 0xE1 + k, 7 bytes (R49)
  rawMeas : List Byte   -- byte k is sensor register 0xF7 + k, 8 bytes (R49)
  deriving DecidableEq, Repr

/-- What stands outside the engine, held so that one deterministic step shows every interleaving and every answer. The lists
of what is still to come are consumed from the front; beyond them the free values of Config stand. -/
structure Env where
  port     : List PortEvent           -- the port events performed, in order (spec/44_cycle.md R313)
  reads    : List (BitVec 8 × Word)   -- what host reads returned, in order: offset and value (spec/20_memory.md R70)
  program  : List HostOp              -- the host's accesses still to come, in program order (R76)
  schedule : List Turn                -- the interleaving still to come (R76)
  answers  : List Answer              -- the transport's answers still to come (spec/40_register_protocol.md R147)
  sensor   : Option Sensor            -- a concrete sensor behind the transport (spec/60_exceptions.md R345)
  draws    : Nat                      -- the number of free values drawn so far
  deriving DecidableEq, Repr

/-- The state of the machine. -/
structure State where
  params  : Params           -- the build parameters, which CAPS reports (R31)
  status  : Status
  events  : Events
  regs    : Regs
  phase   : Phase            -- R50
  curCmd  : Word             -- R50: the accepted command word
  script  : List PortEvent   -- R50: the port events of the command
  ev      : Nat              -- R50: index of the next event of `script`
  rx      : List Byte        -- R50: the bytes received by the command, in order, throwaway bytes included
  cs      : Bool             -- R50: chip select is held asserted
  env     : Env
  deriving DecidableEq, Repr

/-- Why the machine stops. No outcome of the engine is a trap (spec/00_scope.md R11), so every fault below is raised only in a
state that no run from reset reaches: it stands where a sequencer position has no meaning. Each is safe: the model stops. -/
inductive Fault where
  /-- Raised by a run step whose EV is not an index of SCRIPT. Safe. -/
  | eventMissing
  /-- Raised by a commit step whose RX does not hold the bytes the command's script receives. Safe. -/
  | bytesMissing
  /-- Raised by a sequencer step in RUN or COMMIT whose CUR_CMD decodes to no instruction. Safe. -/
  | commandMissing
  deriving DecidableEq, Repr

/-- Why a step has no meaning. -/
inductive Refusal where
  /-- Raised by an arm of `exec` that rejects its instruction by name; no arm does. Safe. -/
  | notModelled (mnemonic : String)
  /-- Raised by a host access at an offset that is not word-aligned: "the model refuses it" (spec/20_memory.md R71). Safe. -/
  | misalignedHostAccess (off : BitVec 8)
  deriving DecidableEq, Repr

/-- The outcome of a step of this machine. -/
abbrev Result := Host.Outcome State Fault Refusal

/-- STATUS after reset (spec/70_reset_and_hazards.md R371): 0x00000000. -/
def Status.reset : Status where
  session := .uninit
  cycle := .idle
  busy := false
  rawValid := false
  tfineValid := false
  tValid := false
  hValid := false
  pValid := false
  configured := false
  pDenZero := false
  lastErr := .ok

/-- EVENTS after reset (R371): 0x00000000. -/
def Events.reset : Events where
  done := false
  err := false
  overrun := false

/-- The coefficient file after reset (R371): zeroed. -/
def Coeffs.reset : Coeffs where
  t1 := 0
  t2 := 0
  t3 := 0
  p1 := 0
  p2 := 0
  p3 := 0
  p4 := 0
  p5 := 0
  p6 := 0
  p7 := 0
  p8 := 0
  p9 := 0
  h1 := 0
  h2 := 0
  h3 := 0
  h4 := 0
  h5 := 0
  h6 := 0

/-- The data registers after reset (R371): no result, no bytes. -/
def Regs.reset : Regs where
  chipId := 0
  adcT := 0
  adcP := 0
  adcH := 0
  tFine := 0
  tOut := 0
  hOut := 0
  hQ10 := 0
  pOut := 0
  dig := Coeffs.reset
  rawCal := List.replicate 26 0
  rawTail := List.replicate 7 0
  rawMeas := List.replicate 8 0

/-- Nothing placed outside the engine (DESIGN CHOICE, log entry 5). -/
def Env.empty : Env where
  port := []
  reads := []
  program := []
  schedule := []
  answers := []
  sensor := none
  draws := 0

/-- The engine of a build right after reset (R370, R371), in an environment. -/
def State.resetWith (p : Params) (e : Env) : State where
  params := p
  status := Status.reset
  events := Events.reset
  regs := Regs.reset
  phase := .idle
  curCmd := 0
  script := []
  ev := 0
  rx := []
  cs := false
  env := e

/-- The machine right after reset: the default build (R7) with nothing placed outside it. -/
def State.reset : State := State.resetWith ({} : Params) Env.empty

end Sys2Proof.Machine
end

