-- ==== Sys2Proof/Machine/Operands.lean ====
section
/-! DEFINITION. The operand forms: the bytes a command puts on the wire and the frames and scripts made of them
(spec/20_memory.md R81, spec/30_encoding.md R102, R110-R123, spec/40_register_protocol.md R142), and the 32-bit view of every
coefficient (spec/10_state.md R48, spec/43_compensation.md R251). -/

namespace Sys2Proof.Machine

/-- DUMMY_BYTE (spec/00_scope.md R7): sent in every transfer of a read's data phase. -/
def dummyByte : Byte := 0x00

/-- CHIP_ID_EXPECTED (R7, R112). -/
def chipIdExpected : Byte := 0x60

/-- The byte written to ctrl_hum (R102). -/
def ctrlHumByte (h : BitVec 3) : Byte := h.zeroExtend 8

/-- The byte written to ctrl_meas (R110). -/
def ctrlMeasByte (m : MeasSel) : Byte :=
  match m with
  | .temp => 0x21
  | .tempHum => 0x22
  | .tempPress => 0x25

/-- The byte always written to config/filter (R111). -/
def configByte : Byte := 0x00

/-- The control bytes of the locations the engine reaches (R81, R120). -/
def addrChipId : Byte := 0xD0
def addrCtrlHum : Byte := 0x72
def addrCtrlMeas : Byte := 0x74
def addrConfig : Byte := 0x75
def addrCal : Byte := 0x88
def addrTail : Byte := 0xE1
def addrMeas : Byte := 0xF7

/-- A read frame of `n` data bytes, `MemRead(addr, n)` (R121, R148). -/
def readFrame (addr : Byte) (n : Nat) : List PortEvent :=
  .csAssert :: .xfer addr :: (List.replicate n (.xfer dummyByte) ++ [.csDeassert])

/-- One write pair, `MemWrite(addr, 1, v)` (R83, R149). -/
def writePair (p : Byte × Byte) : List PortEvent := [.xfer p.1, .xfer p.2]

/-- A write frame: its pairs inside one chip-select assertion (R122). -/
def writeFrame (pairs : List (Byte × Byte)) : List PortEvent :=
  .csAssert :: (pairs.flatMap writePair ++ [.csDeassert])

/-- The frames of R123. -/
def idFrame : List PortEvent := readFrame addrChipId 1
def cfgFrame (h : BitVec 3) (m : MeasSel) : List PortEvent :=
  writeFrame [(addrCtrlHum, ctrlHumByte h), (addrCtrlMeas, ctrlMeasByte m), (addrConfig, configByte)]
def calFrame : List PortEvent := readFrame addrCal 26
def tailFrame : List PortEvent := readFrame addrTail 7
def dataFrame : List PortEvent := readFrame addrMeas 8

/-- The trigger frame (R123): REWRITE_HUM says whether ctrl_hum is written again. -/
def trigFrame (p : Params) (h : BitVec 3) (m : MeasSel) : List PortEvent :=
  if p.rewriteHum then
    writeFrame [(addrCtrlHum, ctrlHumByte h), (addrCtrlMeas, ctrlMeasByte m), (addrConfig, configByte)]
  else
    writeFrame [(addrCtrlMeas, ctrlMeasByte m), (addrConfig, configByte)]

/-- The number of transfers of the trigger frame, `t` of R175. -/
def trigTransfers (p : Params) : Nat := if p.rewriteHum then 6 else 4

/-- `Script(w)` (R142): the port events a command performs. -/
def scriptOf (p : Params) (i : Instr) : List PortEvent :=
  match i with
  | .identify => idFrame
  | .configure h m => cfgFrame h m
  | .loadCal => calFrame ++ tailFrame
  | .measure h m => trigFrame p h m ++ dataFrame
  | .cycle h m => trigFrame p h m ++ dataFrame
  | .compT => []
  | .compH => []
  | .compP => []

/-- The bytes a command receives when every transfer answers: the transfers of its script (R142, R386). -/
def transfersOf (p : Params) (i : Instr) : Nat :=
  match i with
  | .identify => 2
  | .configure _ _ => 6
  | .loadCal => 35
  | .measure _ _ => trigTransfers p + 9
  | .cycle _ _ => trigTransfers p + 9
  | .compT => 0
  | .compH => 0
  | .compP => 0

/-- A 16-bit field from the byte at the lower register address and the one after it (R201). -/
def le16 (lo hi : Byte) : BitVec 16 := hi ++ lo

/-- The four bytes of word `k` of a raw buffer, the lower index in the lower bits; a byte the buffer does not have reads 0
(R49, R74). -/
def packWord (bytes : List Byte) (k : Nat) : Word :=
  (bytes.getD (4 * k + 3) 0 ++ bytes.getD (4 * k + 2) 0 ++ bytes.getD (4 * k + 1) 0 ++ bytes.getD (4 * k) 0 : BitVec 32)

/-- The names of the coefficient registers, in the order of their offsets (R48). -/
inductive Coeff where
  | t1 | t2 | t3
  | p1 | p2 | p3 | p4 | p5 | p6 | p7 | p8 | p9
  | h1 | h2 | h3 | h4 | h5 | h6
  deriving DecidableEq, Repr

/-- A coefficient extended to 32 bits as its register holds it: unsigned zero-extended, signed sign-extended (R48, R251). -/
def Coeffs.word (d : Coeffs) (c : Coeff) : Word :=
  match c with
  | .t1 => d.t1.zeroExtend 32
  | .t2 => d.t2.signExtend 32
  | .t3 => d.t3.signExtend 32
  | .p1 => d.p1.zeroExtend 32
  | .p2 => d.p2.signExtend 32
  | .p3 => d.p3.signExtend 32
  | .p4 => d.p4.signExtend 32
  | .p5 => d.p5.signExtend 32
  | .p6 => d.p6.signExtend 32
  | .p7 => d.p7.signExtend 32
  | .p8 => d.p8.signExtend 32
  | .p9 => d.p9.signExtend 32
  | .h1 => d.h1.zeroExtend 32
  | .h2 => d.h2.signExtend 32
  | .h3 => d.h3.zeroExtend 32
  | .h4 => d.h4.signExtend 32
  | .h5 => d.h5.signExtend 32
  | .h6 => d.h6.signExtend 32

/-- Whether a coefficient register is one of the nine of the pressure, which TH does not implement (R48). -/
def Coeff.isPressure (c : Coeff) : Bool :=
  match c with
  | .p1 | .p2 | .p3 | .p4 | .p5 | .p6 | .p7 | .p8 | .p9 => true
  | .t1 | .t2 | .t3 | .h1 | .h2 | .h3 | .h4 | .h5 | .h6 => false

end Sys2Proof.Machine
end

