-- ==== Sys2Proof/Machine/Formulas.lean ====
section
/-! DEFINITION. The three compensation functions on 32-bit words (spec/43_compensation.md R250-R285), one definition each, and
what they write to the data registers. Every operation wraps modulo 2^32 (R250). -/

namespace Sys2Proof.Machine

/-! ## Temperature (R261) -/

/-- The sum `t_fine = var1 + var2` (R261). -/
def tFineOf (adcT t1 t2 t3 : Word) : Word :=
  let var1 := ((adcT.sshiftRight 3 - (t1 <<< 1)) * t2).sshiftRight 11
  let d := adcT.sshiftRight 4 - t1
  let var2 := ((d * d).sshiftRight 12 * t3).sshiftRight 14
  var1 + var2

/-- The temperature in hundredths of a degree from `t_fine` (R261). -/
def centiDegrees (tf : Word) : Word := (tf * 5 + 128).sshiftRight 8

/-- `CompT(adcT, T1, T2, T3) -> (T, tfine)` (R261). -/
def compTemp (adcT t1 t2 t3 : Word) : Word × Word :=
  (centiDegrees (tFineOf adcT t1 t2 t3), tFineOf adcT t1 t2 t3)

/-! ## Humidity (R271) -/

/-- The polynomial before the clamp (R271). -/
def humPolynomial (adcH tf h1 h2 h3 h4 h5 h6 : Word) : Word :=
  let v := tf - 76800
  let a := ((adcH <<< 14) - (h4 <<< 20) - (h5 * v) + 16384).sshiftRight 15
  let b := (v * h6).sshiftRight 10
  let c := (v * h3).sshiftRight 11 + 32768
  let d := (b * c).sshiftRight 10 + 2097152
  let e := (d * h2 + 8192).sshiftRight 14
  let v := a * e
  v - ((((v.sshiftRight 15) * (v.sshiftRight 15)).sshiftRight 7) * h1).sshiftRight 4

/-- The clamp to `[0, 419430400]` (R271). -/
def humClamp (v : Word) : Word :=
  if v.slt 0 then 0
  else if (419430400 : Word).slt v then 419430400
  else v

/-- Thousandths of %RH from Q10 (R271, conflict C2). -/
def milliOfQ10 (q10 : Word) : Word := (q10 * 1000) / 1024

/-- `CompH(adcH, tf, H1, ..., H6) -> (q10, milli)` (R271). -/
def compHum (adcH tf h1 h2 h3 h4 h5 h6 : Word) : Word × Word :=
  let q10 := humClamp (humPolynomial adcH tf h1 h2 h3 h4 h5 h6) >>> 12
  (q10, milliOfQ10 q10)

/-! ## Pressure (R281) -/

/-- The first `var1` of R281. -/
def pressVar1 (tf : Word) : Word := tf.sshiftRight 1 - 64000

/-- `var2` before the dividend (R281). -/
def pressVar2 (tf p4 p5 p6 : Word) : Word :=
  let var1 := pressVar1 tf
  let var2 := ((var1.sshiftRight 2 * var1.sshiftRight 2).sshiftRight 11) * p6
  let var2 := var2 + ((var1 * p5) <<< 1)
  var2.sshiftRight 2 + (p4 <<< 16)

/-- The second `var1` of R281, after its shift by 18. -/
def pressScale (tf p2 p3 : Word) : Word :=
  let var1 := pressVar1 tf
  (((p3 * ((var1.sshiftRight 2 * var1.sshiftRight 2).sshiftRight 13)).sshiftRight 3) +
    ((p2 * var1).sshiftRight 1)).sshiftRight 18

/-- The denominator, the source's `var4` (R281, R283). -/
def pressDen (tf p1 p2 p3 : Word) : Word := ((32768 + pressScale tf p2 p3) * p1).sshiftRight 15

/-- The dividend (R281). -/
def pressDividend (adcP tf p4 p5 p6 : Word) : Word :=
  ((1048576 - adcP) - (pressVar2 tf p4 p5 p6).sshiftRight 12) * 3125

/-- The split division (R281, R284): below the half-range double first, else divide first. -/
def splitDivide (p den : Word) : Word :=
  if p.ult 0x80000000 then (p <<< 1) / den else (p / den) * 2

/-- The correction after the division (R281). -/
def pressCorrect (p p7 p8 p9 : Word) : Word :=
  let var1 := (p9 * (((p >>> 3) * (p >>> 3)) >>> 13)).sshiftRight 12
  let var2 := ((p >>> 2) * p8).sshiftRight 13
  p + (var1 + var2 + p7).sshiftRight 4

/-- `CompP(adcP, tf, P1, ..., P9) -> (p, denZero)` (R281). A zero denominator short-circuits to 0 (R280, conflict C7). -/
def compPress (adcP tf p1 p2 p3 p4 p5 p6 p7 p8 p9 : Word) : Word × Bool :=
  let den := pressDen tf p1 p2 p3
  if den = 0 then (0, true)
  else (pressCorrect (splitDivide (pressDividend adcP tf p4 p5 p6) den) p7 p8 p9, false)

/-! ## On the data registers -/

/-- `CompT` of the counts and coefficients held: (T, t_fine) (R251, R262). -/
def Regs.temperature (r : Regs) : Word × Word :=
  compTemp (r.adcT.zeroExtend 32) (r.dig.word .t1) (r.dig.word .t2) (r.dig.word .t3)

/-- `CompH` of the count, `t_fine` and coefficients held: (q10, milli) (R251, R272). -/
def Regs.humidity (r : Regs) : Word × Word :=
  compHum (r.adcH.zeroExtend 32) r.tFine (r.dig.word .h1) (r.dig.word .h2) (r.dig.word .h3) (r.dig.word .h4)
    (r.dig.word .h5) (r.dig.word .h6)

/-- `CompP` of the count, `t_fine` and coefficients held: (p, denominator zero) (R251, R282). -/
def Regs.pressure (r : Regs) : Word × Bool :=
  compPress (r.adcP.zeroExtend 32) r.tFine (r.dig.word .p1) (r.dig.word .p2) (r.dig.word .p3) (r.dig.word .p4)
    (r.dig.word .p5) (r.dig.word .p6) (r.dig.word .p7) (r.dig.word .p8) (r.dig.word .p9)

/-- T_FINE and T_OUT written (R262). -/
def Regs.storeTemperature (r : Regs) : Regs := { r with tFine := r.temperature.2, tOut := r.temperature.1 }

/-- H_Q10 and H_OUT written (R272). -/
def Regs.storeHumidity (r : Regs) : Regs := { r with hQ10 := r.humidity.1, hOut := r.humidity.2 }

/-- P_OUT written (R282). -/
def Regs.storePressure (r : Regs) : Regs := { r with pOut := r.pressure.1 }

end Sys2Proof.Machine
end

