-- ==== Sys2Proof/WellFormed.lean ====
section
/-! DEFINITION. Which instructions a build has: the part of spec/30_encoding.md R104 that depends on VARIANT (items 5 and 6).
The other items of R104 concern words that no `Instr` stands for; the decoder refuses those. -/

namespace Sys2Proof

/-- A ctrl_meas selector the variant has (R104 item 5, R110): TH has no 0x25. -/
def MeasSel.wellFormed (v : Variant) (m : MeasSel) : Bool :=
  match v, m with
  | .th, .tempPress => false
  | _, _ => true

/-- An instruction the variant has (R104 items 5 and 6): TH has no selector 0x25 and no COMP_P. -/
def Instr.wellFormed (v : Variant) (i : Instr) : Bool :=
  match i with
  | .identify => true
  | .configure _ m => m.wellFormed v
  | .loadCal => true
  | .measure _ m => m.wellFormed v
  | .compT => true
  | .compH => true
  | .compP => v == .thp
  | .cycle _ m => m.wellFormed v

end Sys2Proof
end

