-- ==== Sys2Proof/Decode.lean ====
section
/-! DEFINITION. The decoder and the encoder of command words (spec/30_encoding.md R100-R105, R110, R130). Decoding is
total: every 32-bit word is one of the eight instructions or illegal for a named reason (R104). -/

namespace Sys2Proof

/-- Why a word is illegal, one name for each item of R104. -/
inductive Illegal where
  | reservedOpcode      -- item 1: OP is 0x0 or 0x9 to 0xF
  | reservedBits        -- item 2: bit 7 or any of bits 31:10 is 1
  | operandBits         -- item 3: an operand-less OP with bits 9:4 not all 0
  | reservedSelector    -- item 4: MSEL = 3
  | pressureSelector    -- item 5: MSEL = 2 in TH
  | pressureCommand     -- item 6: COMP_P in TH
  deriving DecidableEq, Repr

/-- The fields of a command word (R100). -/
def opField (w : Word) : BitVec 4 := w.extractLsb' 0 4
def osrsField (w : Word) : BitVec 3 := w.extractLsb' 4 3
def mselField (w : Word) : BitVec 2 := w.extractLsb' 8 2
/-- Bits 9:4, which an operand-less command must leave 0 (R103). -/
def operandField (w : Word) : BitVec 6 := w.extractLsb' 4 6
/-- Bit 7 and bits 31:10, which every command must leave 0 (R100). -/
def reservedFields (w : Word) : BitVec 23 := w.extractLsb' 10 22 ++ w.extractLsb' 7 1

/-- MSEL (R110): 3 selects nothing. -/
def decodeSel (b : BitVec 2) : Option MeasSel :=
  if b = 0 then some .temp
  else if b = 1 then some .tempHum
  else if b = 2 then some .tempPress
  else none

/-- An operand-less command (R103). -/
def decodePlain (w : Word) (i : Instr) : Except Illegal Instr :=
  if operandField w = 0 then .ok i else .error .operandBits

/-- A command with OSRS_H and MSEL (R102, R104 items 4 and 5). -/
def decodeSelected (v : Variant) (w : Word) (mk : BitVec 3 → MeasSel → Instr) : Except Illegal Instr :=
  match decodeSel (mselField w) with
  | none => .error .reservedSelector
  | some m => if m.wellFormed v then .ok (mk (osrsField w) m) else .error .pressureSelector

/-- The decoder (R105): it reads the word and VARIANT, nothing else. -/
def decode (v : Variant) (w : Word) : Except Illegal Instr :=
  if reservedFields w ≠ 0 then .error .reservedBits
  else
    match (opField w).toNat with
    | 1 => decodePlain w .identify
    | 2 => decodeSelected v w .configure
    | 3 => decodePlain w .loadCal
    | 4 => decodeSelected v w .measure
    | 5 => decodePlain w .compT
    | 6 => decodePlain w .compH
    | 7 => if v = .th then .error .pressureCommand else decodePlain w .compP
    | 8 => decodeSelected v w .cycle
    | _ => .error .reservedOpcode

/-- OP of each command (R101). -/
def opcode (i : Instr) : BitVec 4 :=
  match i with
  | .identify => 1
  | .configure _ _ => 2
  | .loadCal => 3
  | .measure _ _ => 4
  | .compT => 5
  | .compH => 6
  | .compP => 7
  | .cycle _ _ => 8

/-- MSEL of each selector (R110, `msel` of R130). -/
def encodeSel (m : MeasSel) : BitVec 2 :=
  match m with
  | .temp => 0
  | .tempHum => 1
  | .tempPress => 2

/-- The word of an OP and its operands (R100): `0000000000000000000000MM0HHHOOOO`. -/
def commandWord (op : BitVec 4) (h : BitVec 3) (msel : BitVec 2) : Word :=
  (0#22 ++ msel ++ 0#1 ++ h ++ op : BitVec 32)

/-- The encoder (R130). -/
def encode (i : Instr) : Word :=
  match i with
  | .configure h m => commandWord (opcode i) h (encodeSel m)
  | .measure h m => commandWord (opcode i) h (encodeSel m)
  | .cycle h m => commandWord (opcode i) h (encodeSel m)
  | .identify => commandWord (opcode i) 0 0
  | .loadCal => commandWord (opcode i) 0 0
  | .compT => commandWord (opcode i) 0 0
  | .compH => commandWord (opcode i) 0 0
  | .compP => commandWord (opcode i) 0 0

/-- What the decoder of a default build (THP, R7) reads from an instruction whose bits are `w`, of which the opcode table
gives `nbits`; the bits above are 0. A command is one 32-bit word written to CMD as a whole, so the table's numbering is the
word's own (R100). -/
def decodeTableWord (nbits w : Nat) : Option Instr :=
  (decode .thp (BitVec.ofNat 32 (w % 2 ^ nbits))).toOption

end Sys2Proof
end

