-- ==== Sys2Proof/Machine/Flags.lean ====
section
/-! DEFINITION. The flags: how CAPS, STATUS and EVENTS read as words (spec/10_state.md R31, R33, R41), every change of STATUS
and EVENTS that a rule names, and the check of a command with its priority (spec/60_exceptions.md R322-R324). -/

namespace Sys2Proof.Machine

/-! ## The registers as words -/

/-- The code of STATUS.SESSION (R33). -/
def Session.bits (x : Session) : BitVec 2 :=
  match x with
  | .uninit => 0
  | .idConfirmed => 1
  | .calLoaded => 2
  | .faulted => 3

/-- The code of STATUS.CYCLE (R33). -/
def CycleState.bits (x : CycleState) : BitVec 2 :=
  match x with
  | .idle => 0
  | .inFlight => 1
  | .resultReady => 2

/-- The completion code in STATUS.LAST_ERR (R320). -/
def Code.bits (x : Code) : BitVec 4 :=
  match x with
  | .ok => 0
  | .illegalCmd => 1
  | .badState => 2
  | .calNotLoaded => 3
  | .noRaw => 4
  | .noTfine => 5
  | .transport => 6
  | .deviceAbsent => 7

/-- CAPS (R31). -/
def capsWord (p : Params) : Word :=
  (0#16 ++ chipIdExpected ++ 0#3 ++ BitVec.ofBool p.h45Signed ++ BitVec.ofBool p.xferTimeoutEn ++ BitVec.ofBool p.idRetry ++
    BitVec.ofBool p.rewriteHum ++ BitVec.ofBool (p.variant == .thp) : BitVec 32)

/-- STATUS (R33). -/
def Status.word (x : Status) : Word :=
  (0#16 ++ x.lastErr.bits ++ BitVec.ofBool x.pDenZero ++ BitVec.ofBool x.configured ++ BitVec.ofBool x.pValid ++
    BitVec.ofBool x.hValid ++ BitVec.ofBool x.tValid ++ BitVec.ofBool x.tfineValid ++ BitVec.ofBool x.rawValid ++
    BitVec.ofBool x.busy ++ x.cycle.bits ++ x.session.bits : BitVec 32)

/-- EVENTS (R41). -/
def Events.word (x : Events) : Word :=
  (0#29 ++ BitVec.ofBool x.overrun ++ BitVec.ofBool x.err ++ BitVec.ofBool x.done : BitVec 32)

/-! ## Changes of STATUS and EVENTS -/

/-- Acceptance sets BUSY (spec/40_register_protocol.md R140). -/
def Status.accept (x : Status) : Status := { x with busy := true }

/-- Completion writes LAST_ERR and clears BUSY (R327). -/
def Status.complete (code : Code) (x : Status) : Status := { x with lastErr := code, busy := false }

/-- The five validity bits and P_DEN_ZERO cleared (R172, R160). -/
def Status.clearResults (x : Status) : Status :=
  { x with rawValid := false, tfineValid := false, tValid := false, hValid := false, pValid := false, pDenZero := false }

/-- The begin action of MEASURE and CYCLE (R172). -/
def Status.beginCycle (x : Status) : Status := { x.clearResults with cycle := .inFlight }

/-- The abort action of MEASURE and CYCLE (R176). -/
def Status.abandonCycle (x : Status) : Status := { x with cycle := .idle }

/-- What LOAD_CAL's commit writes to STATUS before it completes (R160). -/
def Status.loadCal (x : Status) : Status := { x.clearResults with session := .calLoaded, cycle := .idle }

/-- Every output of the variant is valid (R253). -/
def Status.allValid (v : Variant) (x : Status) : Bool := x.tValid && x.hValid && (x.pValid || v == .th)

/-- `UpdateCycle()` (R253). -/
def Status.updateCycle (v : Variant) (x : Status) : Status :=
  if x.allValid v then { x with cycle := .resultReady } else x

/-- Completion sets DONE, and ERR for a code other than OK (R327). -/
def Events.complete (code : Code) (x : Events) : Events :=
  { x with done := true, err := x.err || code != .ok }

/-- A CMD write while BUSY sets OVERRUN (R140). -/
def Events.setOverrun (x : Events) : Events := { x with overrun := true }

/-- A host write to EVENTS clears the bits written 1 (R41). -/
def Events.clear (v : Word) (x : Events) : Events where
  done := x.done && !v.getLsbD 0
  err := x.err && !v.getLsbD 1
  overrun := x.overrun && !v.getLsbD 2

/-! ## The check -/

/-- `SessionCheck(op, SESSION)` (R323). -/
def sessionCheck (p : Params) (i : Instr) (x : Session) : Code :=
  match i, x with
  | .identify, .uninit => .ok
  | .identify, .idConfirmed => .badState
  | .identify, .calLoaded => .badState
  | .identify, .faulted => if p.idRetry then .ok else .badState
  | .configure _ _, .uninit => .badState
  | .configure _ _, .idConfirmed => .ok
  | .configure _ _, .calLoaded => .ok
  | .loadCal, .uninit => .badState
  | .loadCal, .idConfirmed => .ok
  | .loadCal, .calLoaded => .ok
  | .measure _ _, .calLoaded => .ok
  | .cycle _ _, .calLoaded => .ok
  | .compT, .calLoaded => .ok
  | .compH, .calLoaded => .ok
  | .compP, .calLoaded => .ok
  | .configure _ _, .faulted => .badState
  | .loadCal, .faulted => .badState
  | .measure _ _, .faulted => .badState
  | .cycle _ _, .faulted => .badState
  | .compT, .faulted => .badState
  | .compH, .faulted => .badState
  | .compP, .faulted => .badState
  | .measure _ _, .uninit | .measure _ _, .idConfirmed => .calNotLoaded
  | .cycle _ _, .uninit | .cycle _ _, .idConfirmed => .calNotLoaded
  | .compT, .uninit | .compT, .idConfirmed => .calNotLoaded
  | .compH, .uninit | .compH, .idConfirmed => .calNotLoaded
  | .compP, .uninit | .compP, .idConfirmed => .calNotLoaded

/-- The cycle preconditions (R324). -/
def cycleCheck (i : Instr) (x : Status) : Code :=
  match i with
  | .compT => if x.rawValid then .ok else .noRaw
  | .compH => if x.tfineValid then .ok else .noTfine
  | .compP => if x.tfineValid then .ok else .noTfine
  | .identify => .ok
  | .configure _ _ => .ok
  | .loadCal => .ok
  | .measure _ _ => .ok
  | .cycle _ _ => .ok

/-- `Check(w)` for a word that decodes to `i` (R322): the first code that applies. An instruction the variant does not have
is illegal (R104 items 5 and 6). -/
def checkCode (p : Params) (i : Instr) (x : Status) : Code :=
  if i.wellFormed p.variant then
    match sessionCheck p i x.session with
    | .ok => cycleCheck i x
    | c => c
  else .illegalCmd

end Sys2Proof.Machine
end

