-- ==== Sys2Proof/Machine/Sensor.lean ====
section
/-! DEFINITION. The concrete sensor a model may put behind the transport (spec/60_exceptions.md R345, R346), reached through
frames only (spec/20_memory.md R81-R85). The engine depends on none of it: no sensor is attached at reset. Log entry 4. -/

namespace Sys2Proof.Machine

/-- A sensor after its own power-on, with the given factory calibration (R345). -/
def Sensor.powerOn (calib calibTail : List Byte) : Sensor where
  calib := calib
  calibTail := calibTail
  ctrlHum := 0
  ctrlMeas := 0x00
  config := 0x00
  osrsH := 0
  measuring := []
  press := 0x80000
  temp := 0x80000
  hum := 0x8000
  frame := .idle

/-- The status register 0xF3: bit 3 `measuring`, bit 0 `im_update` (R345). -/
def Sensor.statusByte (sn : Sensor) : Byte := if sn.measuring = [] then 0x00 else 0x08

/-- The content of a sensor register (R345); `none` for a register outside the map. -/
def Sensor.read (a : Byte) (sn : Sensor) : Option Byte :=
  if 0x88 ≤ a ∧ a ≤ 0xA1 then sn.calib[(a - 0x88).toNat]?
  else if 0xE1 ≤ a ∧ a ≤ 0xF0 then sn.calibTail[(a - 0xE1).toNat]?
  else if a = 0xD0 then some 0x60
  else if a = 0xE0 then some 0x00
  else if a = 0xF2 then some (sn.ctrlHum.zeroExtend 8)
  else if a = 0xF3 then some sn.statusByte
  else if a = 0xF4 then some sn.ctrlMeas
  else if a = 0xF5 then some sn.config
  else if a = 0xF7 then some (sn.press.extractLsb' 12 8)
  else if a = 0xF8 then some (sn.press.extractLsb' 4 8)
  else if a = 0xF9 then some (sn.press.extractLsb' 0 4 ++ 0#4)
  else if a = 0xFA then some (sn.temp.extractLsb' 12 8)
  else if a = 0xFB then some (sn.temp.extractLsb' 4 8)
  else if a = 0xFC then some (sn.temp.extractLsb' 0 4 ++ 0#4)
  else if a = 0xFD then some (sn.hum.extractLsb' 8 8)
  else if a = 0xFE then some (sn.hum.extractLsb' 0 8)
  else none

/-- A ctrl_meas byte that starts one conversion: mode `01` or `10` (R345, spec/20_memory.md R85). -/
def forcedMode (v : Byte) : Bool := v.extractLsb' 0 2 == 1 || v.extractLsb' 0 2 == 2

/-- The conversion a ctrl_meas byte triggers with the humidity oversampling in force (R345). -/
def conversionOf (v : Byte) (osrsH : BitVec 3) : Conversion where
  osrsT := v.extractLsb' 5 3
  osrsP := v.extractLsb' 2 3
  osrsH := osrsH

/-- A forced-mode code triggers one more conversion with the oversampling now in force (R85). Where one is still running the
new one waits behind it, and neither changes the other: DESIGN CHOICE, log entry 15. -/
def Sensor.trigger (sn : Sensor) : Sensor :=
  if forcedMode sn.ctrlMeas then { sn with measuring := sn.measuring ++ [conversionOf sn.ctrlMeas sn.osrsH] } else sn

/-- A write to ctrl_meas: the humidity oversampling last written takes effect (R85, R345), then a forced mode triggers. -/
def Sensor.writeCtrlMeas (v : Byte) (sn : Sensor) : Sensor :=
  Sensor.trigger { sn with ctrlMeas := v, osrsH := sn.ctrlHum }

/-- A register write (R345); the read-only registers and those outside the map ignore it. R345 gives config no field at bit 1:
that it holds the bit written and reads it back, as it does its fields, is a DESIGN CHOICE, log entry 16. -/
def Sensor.write (a v : Byte) (sn : Sensor) : Sensor :=
  if a = 0xF2 then { sn with ctrlHum := v.extractLsb' 0 3 }
  else if a = 0xF4 then sn.writeCtrlMeas v
  else if a = 0xF5 then { sn with config := v }
  else if a = 0xE0 ∧ v = 0xB6 then { Sensor.powerOn sn.calib sn.calibTail with frame := sn.frame }
  else sn

/-- Chip select asserted: a frame begins with a control byte (spec/30_encoding.md R121, R122). -/
def Sensor.select (sn : Sensor) : Sensor := { sn with frame := .control }

/-- Chip select deasserted: the frame ends. -/
def Sensor.deselect (sn : Sensor) : Sensor := { sn with frame := .idle }

/-- One transfer: the byte sent back and the sensor after it (R346). A control byte with bit 7 set starts an
auto-incrementing read at that address (R82), one with bit 7 clear a write pair to the register whose bit 7 the protocol
replaces (R81, R83). A burst presents the data registers of one measurement, those held when it began (R84). `free` is what
is sent back where R346 leaves it undefined. -/
def Sensor.transfer (free out : Byte) (sn : Sensor) : Byte × Sensor :=
  match sn.frame with
  | .idle => (free, sn)
  | .control =>
    (free, { sn with frame := if out.getLsbD 7 then .read out sn.press sn.temp sn.hum else .write (out ||| 0x80) })
  | .read a p t h => ((Sensor.read a { sn with press := p, temp := t, hum := h }).getD free,
      { sn with frame := .read (a + 1) p t h })
  | .write a => (free, { (sn.write a out) with frame := .control })

/-- The running conversion ends with the counts it measured (R346): a quantity whose oversampling is 000 is skipped and reports
its sentinel (R345). Once none is left the sensor returns to sleep (R85, R346). Nothing happens where none is running.
DESIGN CHOICE, log entry 15: the oversampling is that of the conversion's own trigger, whatever ctrl_meas and ctrl_hum hold
at its end, and the mode is left as written while a conversion still waits. -/
def Sensor.converted (p t : BitVec 20) (h : BitVec 16) (sn : Sensor) : Sensor :=
  match sn.measuring with
  | [] => sn
  | c :: rest =>
    { sn with
      press := if c.osrsP = 0 then 0x80000 else p
      temp := if c.osrsT = 0 then 0x80000 else t
      hum := if c.osrsH = 0 then 0x8000 else h
      ctrlMeas := if rest = [] then sn.ctrlMeas &&& 0xFC else sn.ctrlMeas
      measuring := rest }

end Sys2Proof.Machine
end

