-- ==== Sys2Proof/Machine/Ops.lean ====
section
/-! DEFINITION. The named operations every command is made of: the port, acceptance, completion, abort and the three kinds
of sequencer step (spec/40_register_protocol.md R140-R147, spec/60_exceptions.md R327). Completion and abort stand where
another machine takes an exception: the engine has no traps (R332), an error completes the command with a code. -/

namespace Sys2Proof.Machine

/-! ## The port and the transport behind it -/

/-- The port event is performed. -/
def Env.perform (e : PortEvent) (x : Env) : Env := { x with port := x.port ++ [e] }

/-- CS_ASSERT, which always succeeds (R147). -/
def Env.select (x : Env) : Env := { x.perform .csAssert with sensor := x.sensor.map Sensor.select }

/-- CS_DEASSERT, which always succeeds (R147). -/
def Env.release (x : Env) : Env := { x.perform .csDeassert with sensor := x.sensor.map Sensor.deselect }

/-- A concrete sensor takes one transfer; the byte is the one it sends back. -/
def Env.clockSensor (out : Byte) (sn : Sensor) (x : Env) : Byte × Env :=
  ((sn.transfer (Config.freeByte x.draws) out).1,
    { x with sensor := some (sn.transfer (Config.freeByte x.draws) out).2, draws := x.draws + 1 })

/-- The transport's answer to `XFER(out)` (R147): the next answer placed, else that of the sensor attached, else a draw.
A placed byte still clocks an attached sensor. Log entries 1 and 4. -/
def Env.transfer (out : Byte) (x : Env) : Answer × Env :=
  match x.answers, x.sensor with
  | .byte i :: rest, some sn => (.byte i, ({ x with answers := rest }.clockSensor out sn).2)
  | a :: rest, _ => (a, { x with answers := rest })
  | [], some sn => (.byte (x.clockSensor out sn).1, (x.clockSensor out sn).2)
  | [], none => (Config.freeAnswer x.draws, { x with draws := x.draws + 1 })

/-- A sensor attached is left in any state by a transfer that failed (spec/93_implementation_defined.md U10). -/
def Env.disturbSensor (x : Env) : Env :=
  { x with sensor := x.sensor.map (Config.sensorAfterFault x.draws), draws := x.draws + 1 }

/-! ## Acceptance, completion, abort -/

/-- Acceptance of a command word (R140, BUSY = 0). -/
def accept (w : Word) (s : State) : State :=
  { s with curCmd := w, status := s.status.accept, phase := .check }

/-- The host offers a command word (R140): accepted, or dropped with OVERRUN while BUSY = 1. -/
def offer (w : Word) (s : State) : State :=
  if s.status.busy then { s with events := s.events.setOverrun } else accept w s

/-- `Complete(code)` (R327). CUR_CMD keeps the last word. -/
def complete (code : Code) (s : State) : State :=
  { s with
    status := s.status.complete code
    events := s.events.complete code
    phase := .idle
    script := []
    ev := 0
    rx := [] }

/-- The frame is closed on the port (R146). -/
def closeFrame (s : State) : State :=
  if s.cs then { s with env := s.env.release, cs := false } else s

/-- `Abort(code)` (R146), with the command's abort action on STATUS. -/
def abort (action : Status → Status) (code : Code) (s : State) : State :=
  let s1 := closeFrame { s with env := s.env.disturbSensor }
  complete code { s1 with status := action s1.status }

/-! ## The steps of a command -/

/-- The check step (R141): `begin` is the command's begin action on STATUS (R143). -/
def checkStep (i : Instr) (begin : Status → Status) (s : State) : State :=
  match checkCode s.params i s.status with
  | .ok =>
    { s with
      status := begin s.status
      script := scriptOf s.params i
      ev := 0
      rx := []
      phase := if scriptOf s.params i = [] then .commit else .run }
  | code => complete code s

/-- EV moves on; after the last event the commit is next (R144). -/
def advance (s : State) : State :=
  { s with ev := s.ev + 1, phase := if s.ev + 1 = s.script.length then .commit else s.phase }

/-- A transfer of the script (R144). A transfer the transport does not answer is not taken: the sequencer stays where it is,
unless XFER_TIMEOUT_EN makes it fail. -/
def transferStep (action : Status → Status) (out : Byte) (s : State) : State :=
  let env := (s.env.transfer out).2
  let performed := { s with env := env.perform (.xfer out) }
  match (s.env.transfer out).1 with
  | .byte i => advance { performed with rx := performed.rx ++ [i] }
  | .fault => abort action .transport performed
  | .noAnswer => if s.params.xferTimeoutEn then abort action .transport performed else { s with env := env }

/-- The run step (R144): the event at EV is performed. -/
def runStep (action : Status → Status) (s : State) : Result :=
  match s.script[s.ev]? with
  | none => .fault .eventMissing
  | some .csAssert => .next (advance { s with cs := true, env := s.env.select })
  | some .csDeassert => .next (advance { s with cs := false, env := s.env.release })
  | some (.xfer out) => .next (transferStep action out s)

/-- One sequencer step of the command `i` (R311), by PHASE: with PHASE = IDLE the word of `i` is offered (R140), then come its
check step (R141), its run steps (R144) and its commit step (R145). -/
def lifecycle (i : Instr) (begin action : Status → Status) (commit : State → Result) (s : State) : Result :=
  match s.phase with
  | .idle => .next (offer (encode i) s)
  | .check => .next (checkStep i begin s)
  | .run => runStep action s
  | .commit => commit s

/-- The check step of a word that decodes to no instruction (R321): it completes with ILLEGAL_CMD, before any other check. -/
def checkIllegal (s : State) : State := complete .illegalCmd s

end Sys2Proof.Machine
end

