-- ==== Sys2Proof/Machine/Compensation.lean ====
section
/-! DEFINITION. The compensation commands COMP_T, COMP_H and COMP_P (spec/43_compensation.md R260-R285). They send nothing on
the port: their check step leads to the commit step. -/

namespace Sys2Proof.Machine

/-- COMP_T's commit (R262). -/
def commitCompT (s : State) : Result :=
  .next (complete .ok
    { s with
      regs := s.regs.storeTemperature
      status := { s.status with tfineValid := true, tValid := true }.updateCycle s.params.variant })

/-- COMP_T (R260). -/
def execCompT (s : State) : Result := lifecycle .compT id id commitCompT s

/-- COMP_H's commit (R272). -/
def commitCompH (s : State) : Result :=
  .next (complete .ok
    { s with
      regs := s.regs.storeHumidity
      status := { s.status with hValid := true }.updateCycle s.params.variant })

/-- COMP_H (R270). -/
def execCompH (s : State) : Result := lifecycle .compH id id commitCompH s

/-- COMP_P's commit (R282). -/
def commitCompP (s : State) : Result :=
  .next (complete .ok
    { s with
      regs := s.regs.storePressure
      status := { s.status with pDenZero := s.regs.pressure.2, pValid := true }.updateCycle s.params.variant })

/-- COMP_P (R280); illegal in TH, which its check step says. -/
def execCompP (s : State) : Result := lifecycle .compP id id commitCompP s

end Sys2Proof.Machine
end

