-- ==== Sys2Proof/Machine/Calibration.lean ====
section
/-! DEFINITION. The calibration store: the decoder LOAD_CAL's commit applies to the bytes it read
(spec/41_calibration_store.md R200-R212). The byte positions are one table, as spec/93_implementation_defined.md asks. -/

namespace Sys2Proof.Machine

/-- Field `i` of the primary block: the bytes `cal[2i]` and `cal[2i+1]` (R202). -/
def calField (cal : List Byte) (i : Nat) : BitVec 16 := le16 (cal.getD (2 * i) 0) (cal.getD (2 * i + 1) 0)

/-- A nibble-packed humidity field: the high byte, sign-extended where H45_SIGNED, above a nibble of the shared byte
(R207, R208). -/
def nibbleField (signed : Bool) (hi : Byte) (nibble : BitVec 4) : BitVec 16 :=
  ((if signed then hi.signExtend 16 else hi.zeroExtend 16) <<< 4) ||| nibble.zeroExtend 16

/-- The temperature and pressure fields of the primary block (R202), by their index. TH decodes no pressure field (R210);
`keep` says whether they are decoded. -/
def pressureField (keep : Bool) (cal : List Byte) (i : Nat) : BitVec 16 := if keep then calField cal i else 0

/-- `DecodeCalibration(cal, tail)` (R200-R210). -/
def decodeCalibration (p : Params) (cal tail : List Byte) : Coeffs :=
  let thp := p.variant == .thp
  { t1 := calField cal 0
    t2 := calField cal 1
    t3 := calField cal 2
    p1 := pressureField thp cal 3
    p2 := pressureField thp cal 4
    p3 := pressureField thp cal 5
    p4 := pressureField thp cal 6
    p5 := pressureField thp cal 7
    p6 := pressureField thp cal 8
    p7 := pressureField thp cal 9
    p8 := pressureField thp cal 10
    p9 := pressureField thp cal 11
    h1 := cal.getD 25 0
    h2 := le16 (tail.getD 0 0) (tail.getD 1 0)
    h3 := tail.getD 2 0
    h4 := nibbleField p.h45Signed (tail.getD 3 0) ((tail.getD 4 0).extractLsb' 0 4)
    h5 := nibbleField p.h45Signed (tail.getD 5 0) ((tail.getD 4 0).extractLsb' 4 4)
    h6 := tail.getD 6 0 }

end Sys2Proof.Machine
end

