-- ==== Sys2Proof/Machine/Measurement.lean ====
section
/-! DEFINITION. The measurement decoder MEASURE's and CYCLE's commits apply to the eight data bytes
(spec/42_measurement_decoder.md R230-R236). -/

namespace Sys2Proof.Machine

/-- A 20-bit count from its MSB, LSB and XLSB bytes: `((msb << 16) | (lsb << 8) | xlsb) >> 4` (R231, R232). -/
def count20 (msb lsb xlsb : Byte) : BitVec 20 := (msb ++ lsb ++ xlsb : BitVec 24).extractLsb' 4 20

/-- The raw counts of a burst. -/
structure Counts where
  press : BitVec 20
  temp  : BitVec 20
  hum   : BitVec 16
  deriving DecidableEq, Repr

/-- `DecodeMeasurement(meas)` (R230-R233): pressure, temperature, humidity, most significant byte first. -/
def decodeMeasurement (meas : List Byte) : Counts where
  press := count20 (meas.getD 0 0) (meas.getD 1 0) (meas.getD 2 0)
  temp := count20 (meas.getD 3 0) (meas.getD 4 0) (meas.getD 5 0)
  hum := meas.getD 6 0 ++ meas.getD 7 0

/-- The bytes and counts a measurement's commit writes (R175); ADC_P only in THP (R235). -/
def Regs.storeMeasurement (v : Variant) (meas : List Byte) (r : Regs) : Regs :=
  { r with
    rawMeas := meas
    adcT := (decodeMeasurement meas).temp
    adcH := (decodeMeasurement meas).hum
    adcP := if v = .thp then (decodeMeasurement meas).press else r.adcP }

end Sys2Proof.Machine
end

