-- ==== Sys2Proof/Machine/Protocol.lean ====
section
/-! DEFINITION. The commands of the register protocol: IDENTIFY, CONFIGURE, LOAD_CAL and MEASURE
(spec/40_register_protocol.md R150-R177). `RX[k]` of the spec counts from 1. -/

namespace Sys2Proof.Machine

/-- IDENTIFY's commit (R152): `chip = RX[2]`. -/
def commitIdentify (s : State) : Result :=
  match s.rx with
  | [_, chip] =>
    let read := { s with regs := { s.regs with chipId := chip } }
    if chip = chipIdExpected then
      .next (complete .ok { read with status := { s.status with session := .idConfirmed } })
    else
      .next (complete .deviceAbsent { read with status := { s.status with session := .faulted } })
  | _ => .fault .bytesMissing

/-- IDENTIFY (R150). -/
def execIdentify (s : State) : Result := lifecycle .identify id id commitIdentify s

/-- CONFIGURE's commit (R157). The six bytes received are discarded. -/
def commitConfigure (s : State) : Result :=
  .next (complete .ok { s with status := { s.status with configured := true } })

/-- CONFIGURE h, m (R155). -/
def execConfigure (h : BitVec 3) (m : MeasSel) (s : State) : Result :=
  lifecycle (.configure h m) id id commitConfigure s

/-- LOAD_CAL's bytes (R166): `cal[k] = RX[2 + k]`, `tail[j] = RX[29 + j]`. -/
def calBytes (rx : List Byte) : List Byte := (rx.drop 1).take 26
def tailBytes (rx : List Byte) : List Byte := (rx.drop 28).take 7

/-- LOAD_CAL's writes to the data registers (R160, R166). -/
def Regs.storeCalibration (p : Params) (rx : List Byte) (r : Regs) : Regs :=
  { r with
    rawCal := calBytes rx
    rawTail := tailBytes rx
    dig := decodeCalibration p (calBytes rx) (tailBytes rx) }

/-- LOAD_CAL's commit (R166). -/
def commitLoadCal (s : State) : Result :=
  if s.rx.length = 35 then
    .next (complete .ok { s with regs := s.regs.storeCalibration s.params s.rx, status := s.status.loadCal })
  else .fault .bytesMissing

/-- LOAD_CAL (R160). -/
def execLoadCal (s : State) : Result := lifecycle .loadCal id id commitLoadCal s

/-- The data bytes of MEASURE and CYCLE (R175): `meas[k] = RX[t + 2 + k]`. -/
def measBytes (p : Params) (rx : List Byte) : List Byte := rx.drop (trigTransfers p + 1)

/-- MEASURE's commit (R175). -/
def commitMeasure (s : State) : Result :=
  if s.rx.length = trigTransfers s.params + 9 then
    .next (complete .ok
      { s with
        regs := s.regs.storeMeasurement s.params.variant (measBytes s.params s.rx)
        status := { s.status with rawValid := true } })
  else .fault .bytesMissing

/-- MEASURE h, m (R170). -/
def execMeasure (h : BitVec 3) (m : MeasSel) (s : State) : Result :=
  lifecycle (.measure h m) Status.beginCycle Status.abandonCycle commitMeasure s

end Sys2Proof.Machine
end

