-- ==== Sys2Proof/Machine/Cycle.lean ====
section
/-! DEFINITION. The composite command CYCLE (spec/44_cycle.md R300-R305): MEASURE's script, then the decode and every
compensation of the variant in one commit. -/

namespace Sys2Proof.Machine

/-- The data registers after the temperature and the humidity of the counts just read (R302). -/
def Regs.storeCycle (v : Variant) (meas : List Byte) (r : Regs) : Regs :=
  ((r.storeMeasurement v meas).storeTemperature).storeHumidity

/-- STATUS after CYCLE's commit but for its completion (R302); `z` is the denominator flag of the pressure, which only THP
computes. -/
def Status.cycleDone (v : Variant) (z : Bool) (x : Status) : Status :=
  { x with
    rawValid := true
    tfineValid := true
    tValid := true
    hValid := true
    pValid := if v = .thp then true else x.pValid
    pDenZero := if v = .thp then z else x.pDenZero
    cycle := .resultReady }

/-- CYCLE's commit (R302). -/
def commitCycle (s : State) : Result :=
  if s.rx.length = trigTransfers s.params + 9 then
    let regs := s.regs.storeCycle s.params.variant (measBytes s.params s.rx)
    .next (complete .ok
      { s with
        regs := if s.params.variant = .thp then regs.storePressure else regs
        status := s.status.cycleDone s.params.variant regs.pressure.2 })
  else .fault .bytesMissing

/-- CYCLE h, m (R300). -/
def execCycle (h : BitVec 3) (m : MeasSel) (s : State) : Result :=
  lifecycle (.cycle h m) Status.beginCycle Status.abandonCycle commitCycle s

end Sys2Proof.Machine
end

