-- ==== Sys2Proof/Machine/Dispatch.lean ====
section
/-! DEFINITION. One arm per instruction: `exec i s` is one sequencer step of the command `i` (spec/44_cycle.md R311). -/

namespace Sys2Proof.Machine

def exec (i : Instr) (s : State) : Host.Outcome State Fault Refusal :=
  match i with
  | .identify => Sys2Proof.Machine.execIdentify s
  | .configure h m => Sys2Proof.Machine.execConfigure h m s
  | .loadCal => Sys2Proof.Machine.execLoadCal s
  | .measure h m => Sys2Proof.Machine.execMeasure h m s
  | .compT => Sys2Proof.Machine.execCompT s
  | .compH => Sys2Proof.Machine.execCompH s
  | .compP => Sys2Proof.Machine.execCompP s
  | .cycle h m => Sys2Proof.Machine.execCycle h m s

end Sys2Proof.Machine
end

