-- ==== Sys2Proof/Machine/HostAccess.lean ====
section
/-! DEFINITION. The host register space (spec/10_state.md R30, spec/20_memory.md R70-R74): the register map, what a host read
returns and what a host write does. -/

namespace Sys2Proof.Machine

/-- The host registers (R30). -/
inductive HostReg where
  | caps | cmd | status | events | chipId | adcT | adcP | adcH | tFine | tOut | hOut | hQ10 | pOut
  | dig (c : Coeff)
  | rawCal (k : Nat)
  | rawTail (k : Nat)
  | rawMeas (k : Nat)
  deriving DecidableEq, Repr

/-- The register map (R30, R48, R49): each offset and its register. -/
def registerMap : List (BitVec 8 × HostReg) :=
  [(0x00, .caps), (0x04, .cmd), (0x08, .status), (0x0C, .events), (0x10, .chipId), (0x14, .adcT), (0x18, .adcP),
    (0x1C, .adcH), (0x20, .tFine), (0x24, .tOut), (0x28, .hOut), (0x2C, .hQ10), (0x30, .pOut)] ++
  [(0x40, .dig .t1), (0x44, .dig .t2), (0x48, .dig .t3), (0x4C, .dig .p1), (0x50, .dig .p2), (0x54, .dig .p3),
    (0x58, .dig .p4), (0x5C, .dig .p5), (0x60, .dig .p6), (0x64, .dig .p7), (0x68, .dig .p8), (0x6C, .dig .p9),
    (0x70, .dig .h1), (0x74, .dig .h2), (0x78, .dig .h3), (0x7C, .dig .h4), (0x80, .dig .h5), (0x84, .dig .h6)] ++
  [(0x90, .rawCal 0), (0x94, .rawCal 1), (0x98, .rawCal 2), (0x9C, .rawCal 3), (0xA0, .rawCal 4), (0xA4, .rawCal 5),
    (0xA8, .rawCal 6), (0xAC, .rawTail 0), (0xB0, .rawTail 1), (0xB4, .rawMeas 0), (0xB8, .rawMeas 1)]

/-- The register at an offset; `none` for an unmapped one (R73). -/
def regAt (off : BitVec 8) : Option HostReg := (registerMap.find? fun row => row.1 == off).map Prod.snd

/-- A word of the pressure side, which TH does not implement: it reads 0 there (spec/00_scope.md R6). -/
def thpOnly (v : Variant) (w : Word) : Word := if v = .thp then w else 0

/-- What a register reads as (R31-R33, R41-R49). -/
def HostReg.value (s : State) (r : HostReg) : Word :=
  match r with
  | .caps => capsWord s.params
  | .cmd => 0
  | .status => s.status.word
  | .events => s.events.word
  | .chipId => s.regs.chipId.zeroExtend 32
  | .adcT => s.regs.adcT.zeroExtend 32
  | .adcP => thpOnly s.params.variant (s.regs.adcP.zeroExtend 32)
  | .adcH => s.regs.adcH.zeroExtend 32
  | .tFine => s.regs.tFine
  | .tOut => s.regs.tOut
  | .hOut => s.regs.hOut
  | .hQ10 => s.regs.hQ10
  | .pOut => thpOnly s.params.variant s.regs.pOut
  | .dig c => if c.isPressure then thpOnly s.params.variant (s.regs.dig.word c) else s.regs.dig.word c
  | .rawCal k => packWord s.regs.rawCal k
  | .rawTail k => packWord s.regs.rawTail k
  | .rawMeas k => packWord s.regs.rawMeas k

/-- `HostRead(off)` (R70): the register's value, 0 at an unmapped offset (R73). -/
def readOffset (s : State) (off : BitVec 8) : Word :=
  match regAt off with
  | some r => r.value s
  | none => 0

/-- Every host access is at a word-aligned offset (R71). -/
def aligned (off : BitVec 8) : Bool := off.extractLsb' 0 2 == 0

/-- A host read: nothing changes but what the host has learned (R72). -/
def hostRead (off : BitVec 8) (s : State) : State :=
  { s with env := { s.env with reads := s.env.reads ++ [(off, readOffset s off)] } }

/-- A host write (R70, R72): CMD offers a command (R140), EVENTS is write-1-to-clear (R41), every other offset ignores it. -/
def hostWrite (off : BitVec 8) (v : Word) (s : State) : State :=
  match regAt off with
  | some .cmd => offer v s
  | some .events => { s with events := s.events.clear v }
  | _ => s

/-- The offset of STATUS (R30). -/
def statusOffset : BitVec 8 := 0x08

/-- The bytes of the host register space: an 8-bit host address (R70). -/
def spaceBytes : Nat := 256

/-- Where an offset stands in the host CPU's address space (spec/20_memory.md R87). -/
def cpuAddress (off : BitVec 8) : Nat := Config.hostBase + off.toNat

/-- The offset a CPU address names; `none` outside the engine's space (R87). -/
def offsetOfCpu (a : Nat) : Option (BitVec 8) :=
  if Config.hostBase ≤ a ∧ a < Config.hostBase + spaceBytes then some (BitVec.ofNat 8 (a - Config.hostBase)) else none

end Sys2Proof.Machine
end

