-- ==== Sys2Proof/Machine/Agents.lean ====
section
/-! DEFINITION. One step of each agent (spec/00_scope.md R3) and of the whole machine: whose turn it is, and what that turn
does. Host steps and sequencer steps are interleaved one at a time (spec/20_memory.md R75, R76). -/

namespace Sys2Proof.Machine

/-- The sequencer's step (R311). With PHASE = IDLE it has no move. Otherwise CUR_CMD is decoded (spec/30_encoding.md R105) and
the command takes its step; a word that is no instruction completes at its check step (spec/60_exceptions.md R321). -/
def sequencerStep (s : State) : Result :=
  if s.phase = .idle then .next s
  else
    match decode s.params.variant s.curCmd with
    | .ok i => exec i s
    | .error _ => if s.phase = .check then .next (checkIllegal s) else .fault .commandMissing

/-- The host's next access is done with. -/
def popProgram (s : State) : State := { s with env := { s.env with program := s.env.program.tail } }

/-- The host's step: its next access in program order (R70, R76). A misaligned access is refused (R71). WAIT reads STATUS, and
ends when BUSY reads 0 (spec/30_encoding.md R131). A host with no access left has no move. -/
def hostStep (s : State) : Result :=
  match s.env.program with
  | [] => .next s
  | .read off :: _ => if aligned off then .next (popProgram (hostRead off s)) else .refused (.misalignedHostAccess off)
  | .write off v :: _ =>
    if aligned off then .next (popProgram (hostWrite off v s)) else .refused (.misalignedHostAccess off)
  | .wait :: _ => if s.status.busy then .next (hostRead statusOffset s) else .next (popProgram (hostRead statusOffset s))

/-- The platform's reset (spec/70_reset_and_hazards.md R370): the engine is as after reset, a chip select held is released
without a completion; the build parameters and what stands outside the engine, the sensor included (R373), stay. -/
def platformReset (s : State) : State := State.resetWith s.params (if s.cs then s.env.release else s.env)

/-- The concrete sensor's conversion ends (spec/60_exceptions.md R346). -/
def sensorConverted (p t : BitVec 20) (h : BitVec 16) (s : State) : State :=
  { s with env := { s.env with sensor := s.env.sensor.map (Sensor.converted p t h) } }

/-- Whose turn it is: the next turn placed, else any (R76). Log entry 2. -/
def nextTurn (x : Env) : Turn × Env :=
  match x.schedule with
  | t :: rest => (t, { x with schedule := rest })
  | [] => (Config.freeTurn x.draws, { x with draws := x.draws + 1 })

/-- What a turn does. -/
def takeTurn (t : Turn) (s : State) : Result :=
  match t with
  | .host => hostStep s
  | .sequencer => sequencerStep s
  | .reset => .next (platformReset s)
  | .converted p t h => .next (sensorConverted p t h s)

/-- One step of the machine. -/
def machineStep (s : State) : Result := takeTurn (nextTurn s.env).1 { s with env := (nextTurn s.env).2 }

/-- The command word `w` accepted (R140), and the sequencer's turn next: the very next step is the check step of `w`. The
engine fetches no program (R372, R388), so this stands for a host write to CMD. Log entry 3. -/
def placeCommand (w : Word) (s : State) : State :=
  let a := accept w s
  { a with env := { a.env with schedule := .sequencer :: a.env.schedule } }

end Sys2Proof.Machine
end

