-- ==== Sys2Proof/Machine/Step.lean ====
section
/-! DEFINITION. The step of the machine, and the placing of a command word where the next step takes it. -/

namespace Sys2Proof.Machine

/-- One step: one agent's turn. -/
def step : State → Host.Outcome State Fault Refusal := machineStep

/-- `s` with the command whose bits are `w` (of which the opcode table gives `nbits`; the bits above are 0) accepted and the
sequencer's turn next. -/
def State.withFetchWord (s : State) (nbits w : Nat) : State := placeCommand (BitVec.ofNat 32 (w % 2 ^ nbits)) s

end Sys2Proof.Machine
end

