-- ==== Sys2Proof/Machine/HostProgram.lean ====
section
/-! DEFINITION. The assembler and the host's pseudo-instructions (spec/30_encoding.md R130, R131): how a command as written
becomes a word, and how a line of a host program becomes the host's accesses. -/

namespace Sys2Proof.Machine

/-- A command as written (R130): `h` and `m` are numbers, `m` the ctrl_meas byte. -/
inductive Source where
  | identify
  | configure (h m : Nat)
  | loadCal
  | measure (h m : Nat)
  | compT
  | compH
  | compP
  | cycle (h m : Nat)
  deriving DecidableEq, Repr

/-- `msel(m)` of R130: any other `m` is an assembly error. -/
def selOfByte (m : Nat) : Option MeasSel :=
  if m = 0x21 then some .temp
  else if m = 0x22 then some .tempHum
  else if m = 0x25 then some .tempPress
  else none

/-- The operands of R130: `h` is 0 to 7. -/
def assembleOperands (mk : BitVec 3 → MeasSel → Instr) (h m : Nat) : Option Instr :=
  if h < 8 then (selOfByte m).map (mk (BitVec.ofNat 3 h)) else none

/-- The instruction a command spells (R130). -/
def assemble (x : Source) : Option Instr :=
  match x with
  | .identify => some .identify
  | .configure h m => assembleOperands .configure h m
  | .loadCal => some .loadCal
  | .measure h m => assembleOperands .measure h m
  | .compT => some .compT
  | .compH => some .compH
  | .compP => some .compP
  | .cycle h m => assembleOperands .cycle h m

/-- A line of a host program (R131). -/
inductive Line where
  | write (off : BitVec 8) (v : Word)  -- W off, v
  | read (off : BitVec 8)              -- R off
  | wait                               -- WAIT
  | command (x : Source)               -- a mnemonic: W 0x004, its word
  | doCommand (x : Source)             -- DO X
  | init (h m : Nat)                   -- INIT h, m
  | poll (h m : Nat)                   -- POLL h, m
  | ack                                -- ACK
  deriving DecidableEq, Repr

/-- The host write that offers a command (R131). -/
def issue (x : Source) : Option (List HostOp) := (assemble x).map fun i => [.write 0x04 (encode i)]

/-- `DO X`: the command, then WAIT (R131). -/
def issueAndWait (x : Source) : Option (List HostOp) := (issue x).map (· ++ [.wait])

/-- The accesses a line expands to (R131). -/
def Line.expand (x : Line) : Option (List HostOp) :=
  match x with
  | .write off v => some [.write off v]
  | .read off => some [.read off]
  | .wait => some [.wait]
  | .command c => issue c
  | .doCommand c => issueAndWait c
  | .init h m => do
    let a ← issueAndWait .identify
    let b ← issueAndWait (.configure h m)
    let c ← issueAndWait .loadCal
    pure (a ++ b ++ c)
  | .poll h m => issueAndWait (.cycle h m)
  | .ack => some [.write 0x0C 0x00000007]

/-- A host program: its lines expanded in order; `none` for an assembly error. -/
def expandProgram (lines : List Line) : Option (List HostOp) := (lines.mapM Line.expand).map List.flatten

end Sys2Proof.Machine
end

