-- ==== Sys2Proof/Safety.lean ====
section
/-! DEFINITION. What counts as a safe state, in the terms the statements use: the invariants spec/10_state.md R35-R37 and R50
give, and the ways to run one command that spec/44_cycle.md R303 compares. -/

namespace Sys2Proof.Machine

/-- The rules STATUS keeps after every step (R35, R37, R38, R39). -/
structure Status.Consistent (v : Variant) (x : Status) : Prop where
  tfine_eq_t   : x.tfineValid = x.tValid
  tfine_raw    : x.tfineValid = true → x.rawValid = true
  hum_tfine    : x.hValid = true → x.tfineValid = true
  press_tfine  : x.pValid = true → x.tfineValid = true
  th_no_press  : v = .th → x.pValid = false ∧ x.pDenZero = false
  ready_iff    : x.cycle = .resultReady ↔ x.tValid = true ∧ x.hValid = true ∧ (x.pValid = true ∨ v = .th)
  raw_loaded   : x.rawValid = true → x.session = .calLoaded
  idle_unless  : x.session ≠ .calLoaded → x.cycle = .idle

/-- The ranges the data registers keep (R43, R46, R47, R48, R49). -/
structure Regs.InRange (v : Variant) (r : Regs) : Prop where
  q10_max     : r.hQ10.toNat ≤ 102400
  milli_max   : r.hOut.toNat ≤ 100000
  cal_bytes   : r.rawCal.length = 26
  tail_bytes  : r.rawTail.length = 7
  meas_bytes  : r.rawMeas.length = 8
  th_no_count : v = .th → r.adcP = 0 ∧ r.pOut = 0
  th_no_coeff : v = .th → r.dig.p1 = 0 ∧ r.dig.p2 = 0 ∧ r.dig.p3 = 0 ∧ r.dig.p4 = 0 ∧ r.dig.p5 = 0 ∧ r.dig.p6 = 0 ∧
    r.dig.p7 = 0 ∧ r.dig.p8 = 0 ∧ r.dig.p9 = 0

/-- A transfer, the one port event that receives a byte. -/
def PortEvent.isTransfer (e : PortEvent) : Bool :=
  match e with
  | .csAssert => false
  | .xfer _ => true
  | .csDeassert => false

/-- The bytes received once the events have all been answered. -/
def transfersIn (events : List PortEvent) : Nat := events.countP PortEvent.isTransfer

/-- Chip select after one event. -/
def PortEvent.csNext (cs : Bool) (e : PortEvent) : Bool :=
  match e with
  | .csAssert => true
  | .xfer _ => cs
  | .csDeassert => false

/-- Chip select after some events, from deasserted. -/
def csAfter (events : List PortEvent) : Bool := events.foldl PortEvent.csNext false

/-- The commands that begin a measurement cycle at their check step (spec/40_register_protocol.md R143, R172). -/
def beginsCycle (i : Instr) : Bool :=
  match i with
  | .measure _ _ => true
  | .cycle _ _ => true
  | .identify => false
  | .configure _ _ => false
  | .loadCal => false
  | .compT => false
  | .compH => false
  | .compP => false

/-- STATUS while a measurement cycle's command runs (R172): nothing of an earlier cycle is valid. -/
structure Status.Begun (x : Status) : Prop where
  cycle   : x.cycle = .inFlight
  raw     : x.rawValid = false
  tfine   : x.tfineValid = false
  temp    : x.tValid = false
  hum     : x.hValid = false
  press   : x.pValid = false
  denZero : x.pDenZero = false

/-- The sequencer stands inside the script of `i`, whose check has passed (R50, R141, R144). -/
structure State.Running (s : State) (i : Instr) : Prop where
  decoded  : decode s.params.variant s.curCmd = .ok i
  script   : s.script = scriptOf s.params i
  received : s.rx.length = transfersIn (s.script.take s.ev)
  select   : s.cs = csAfter (s.script.take s.ev)
  inside   : s.phase = .run → s.ev < s.script.length
  done     : s.phase = .commit → s.ev = s.script.length
  session  : sessionCheck s.params i s.status.session = .ok
  cycle    : cycleCheck i s.status = .ok
  begun    : beginsCycle i = true → s.status.Begun

/-- The sequencer holds nothing of a command (R50, R327). -/
structure State.Quiet (s : State) : Prop where
  script : s.script = []
  ev     : s.ev = 0
  rx     : s.rx = []
  cs     : s.cs = false

/-- The invariant of the machine: it holds at reset and every step keeps it. -/
structure State.Inv (s : State) : Prop where
  busy     : s.status.busy = true ↔ s.phase ≠ .idle
  status   : s.status.Consistent s.params.variant
  regs     : s.regs.InRange s.params.variant
  quiet    : s.phase = .idle ∨ s.phase = .check → s.Quiet
  running  : s.phase = .run ∨ s.phase = .commit → ∃ i, s.Running i

/-- One more step where the outcome so far is a next state. -/
def andThen (r : Result) (f : State → Result) : Result :=
  match r with
  | .next s => f s
  | .fault e => .fault e
  | .refused e => .refused e

/-- A command without port events, from the offer to its completion: acceptance, check step, commit step (R386). -/
def runPlain (i : Instr) (s : State) : Result := andThen (andThen (exec i s) (exec i)) (exec i)

/-- The counts of a conversion that may end before a transfer. -/
abbrev Ending := Option (BitVec 20 × BitVec 20 × BitVec 16)

/-- A concrete sensor when a conversion may have ended. -/
def Sensor.endIf (e : Ending) (sn : Sensor) : Sensor :=
  match e with
  | none => sn
  | some (p, t, h) => sn.converted p t h

/-- A concrete sensor after the control byte and `k` data transfers of a read frame (spec/60_exceptions.md R346); `ends j` is
the conversion that ends before data transfer `j`. -/
def Sensor.burst (free : Nat → Byte) (ends : Nat → Ending) (addr : Byte) (sn : Sensor) (k : Nat) : Sensor :=
  match k with
  | 0 => (sn.select.transfer (free 0) addr).2
  | j + 1 => (((sn.burst free ends addr j).endIf (ends j)).transfer (free (j + 1)) dummyByte).2

/-- The byte of data transfer `k` of that frame. -/
def Sensor.burstByte (free : Nat → Byte) (ends : Nat → Ending) (addr : Byte) (sn : Sensor) (k : Nat) : Byte :=
  (((sn.burst free ends addr k).endIf (ends k)).transfer (free (k + 1)) dummyByte).1

end Sys2Proof.Machine
end

