-- ==== Sys2Proof/Safety/Reference.lean ====
section
/-! DEFINITION. Rules of the spec written a second time over the integers and the natural numbers, with floor division and an
explicit wrap, for the statements that hold the machine's 32-bit words against them. -/

namespace Sys2Proof.Machine

/-! ## Illegal words (spec/30_encoding.md R104) -/

/-- OP, OSRS_H, bit 7, MSEL, bits 9:4 and bits 31:10 of a word as numbers (R100). -/
def opOf (w : Word) : Nat := w.toNat % 16
def bit7Of (w : Word) : Nat := w.toNat / 128 % 2
def mselOf (w : Word) : Nat := w.toNat / 256 % 4
def operandsOf (w : Word) : Nat := w.toNat / 16 % 64
def highOf (w : Word) : Nat := w.toNat / 1024

/-- The six items of R104. -/
def IllegalWord (v : Variant) (w : Word) : Prop :=
  (opOf w = 0 ∨ 9 ≤ opOf w) ∨
  (bit7Of w = 1 ∨ highOf w ≠ 0) ∨
  (opOf w ∈ [1, 3, 5, 6, 7] ∧ operandsOf w ≠ 0) ∨
  (opOf w ∈ [2, 4, 8] ∧ mselOf w = 3) ∨
  (v = .th ∧ opOf w ∈ [2, 4, 8] ∧ mselOf w = 2) ∨
  (v = .th ∧ opOf w = 7)

/-! ## Integers of 32 bits (spec/00_scope.md R9) -/

/-- The exact result reduced modulo 2^32 and read as `s32`. -/
def wrap (x : Int) : Int := x.bmod 0x100000000

/-- `x >>s k`: the floor of `x / 2^k`. -/
def sar (x : Int) (k : Nat) : Int := x / 2 ^ k

/-- `u32(x)`: the 32 bits of `x` read as unsigned. -/
def unsigned (x : Int) : Int := x % 0x100000000

/-! ## The compensation functions (spec/43_compensation.md R261, R271, R281) -/

/-- R261: (T, t_fine). -/
def tempReference (adcT t1 t2 t3 : Int) : Int × Int :=
  let var1 := sar (wrap (wrap (sar adcT 3 - wrap (t1 * 2)) * t2)) 11
  let d := wrap (sar adcT 4 - t1)
  let var2 := sar (wrap (sar (wrap (d * d)) 12 * t3)) 14
  let tf := wrap (var1 + var2)
  (sar (wrap (wrap (tf * 5) + 128)) 8, tf)

/-- R271: (q10, milli). -/
def humReference (adcH tf h1 h2 h3 h4 h5 h6 : Int) : Int × Int :=
  let v := wrap (tf - 76800)
  let a := sar (wrap (wrap (wrap (wrap (adcH * 2 ^ 14) - wrap (h4 * 2 ^ 20)) - wrap (h5 * v)) + 16384)) 15
  let b := sar (wrap (v * h6)) 10
  let c := wrap (sar (wrap (v * h3)) 11 + 32768)
  let d := wrap (sar (wrap (b * c)) 10 + 2097152)
  let e := sar (wrap (wrap (d * h2) + 8192)) 14
  let x := wrap (a * e)
  let y := wrap (x - sar (wrap (sar (wrap (sar x 15 * sar x 15)) 7 * h1)) 4)
  let z := if y < 0 then 0 else if y > 419430400 then 419430400 else y
  (z / 4096, z / 4096 * 1000 / 1024)

/-- R281: the denominator. -/
def pressDenReference (tf p1 p2 p3 : Int) : Int :=
  let var1 := wrap (sar tf 1 - 64000)
  let x := sar (wrap (p3 * sar (wrap (sar var1 2 * sar var1 2)) 13)) 3
  let y := sar (wrap (x + sar (wrap (p2 * var1)) 1)) 18
  sar (wrap (wrap (32768 + y) * p1)) 15

/-- R281: (p, denominator zero), `p` unsigned. -/
def pressReference (adcP tf p1 p2 p3 p4 p5 p6 p7 p8 p9 : Int) : Int × Bool :=
  let var1 := wrap (sar tf 1 - 64000)
  let var2 := wrap (sar (wrap (sar var1 2 * sar var1 2)) 11 * p6)
  let var2 := wrap (var2 + wrap (wrap (var1 * p5) * 2))
  let var2 := wrap (sar var2 2 + wrap (p4 * 2 ^ 16))
  let den := pressDenReference tf p1 p2 p3
  if den = 0 then (0, true)
  else
    let p := unsigned (unsigned (unsigned (1048576 - adcP) - unsigned (sar var2 12)) * 3125)
    let p := if p < 0x80000000 then unsigned (p * 2) / unsigned den else unsigned (p / unsigned den * 2)
    let w1 := sar (wrap (p9 * wrap (unsigned (p / 8 * (p / 8)) / 2 ^ 13))) 12
    let w2 := sar (wrap (wrap (p / 4) * p8)) 13
    (unsigned (wrap p + sar (wrap (wrap (w1 + w2) + p7)) 4), false)

/-! ## The permissions (spec/60_exceptions.md R323) -/

/-- One row of R323's table: the codes in UNINIT, ID_CONFIRMED, CAL_LOADED, FAULTED. -/
def permission (row : Code × Code × Code × Code) (x : Session) : Code :=
  match x with
  | .uninit => row.1
  | .idConfirmed => row.2.1
  | .calLoaded => row.2.2.1
  | .faulted => row.2.2.2

end Sys2Proof.Machine
end

