-- ==== Sys2Proof/Certificates/Slice0/Obligations.lean ====
section
/-! DEFINITION. The statements. Each docstring names the rules of spec/ it rests on. Statements quantify over every state,
build and answer; `env` is what stands outside the engine. Where a record update `{ s with … }` is the conclusion, every field
it does not name is unchanged: that is the frame. The engine has no byte memory (spec/10_state.md R52). -/

open Sys2Proof Sys2Proof.Machine

/-! ## Encoding -/

/-- R100-R105, R130: decoding the word of an instruction the variant has gives it back, for every operand. -/
def Obligations.DecodeOfEncode : Prop :=
  ∀ (v : Variant) (i : Instr), i.wellFormed v = true → decode v (encode i) = .ok i

/-- R103, R105: a word that decodes is the one word of its instruction, and the variant has that instruction. -/
def Obligations.EncodeOfDecode : Prop :=
  ∀ (v : Variant) (w : Word) (i : Instr), decode v w = .ok i → encode i = w ∧ i.wellFormed v = true

/-- R104: a word is illegal exactly when one of the six items holds, and an illegal word completes with ILLEGAL_CMD at its
check step, whatever the session, without any port event; a word for which no item holds decodes to an instruction. -/
def Obligations.IllegalWordsComplete : Prop :=
  (∀ (v : Variant) (w : Word), IllegalWord v w ↔ ¬ ∃ i, decode v w = .ok i) ∧
  (∀ s : State, s.phase = .check → IllegalWord s.params.variant s.curCmd →
    sequencerStep s = .next { s with
      status := { s.status with lastErr := .illegalCmd, busy := false }
      events := { s.events with done := true, err := true }
      phase := .idle, script := [], ev := 0, rx := [] })

/-- R130: the assembler's syntax and the word each line spells. -/
def Obligations.AssembledWords : Prop :=
  (assemble .identify).map encode = some 0x00000001#32 ∧
  (assemble .loadCal).map encode = some 0x00000003#32 ∧
  (assemble .compT).map encode = some 0x00000005#32 ∧
  (assemble .compH).map encode = some 0x00000006#32 ∧
  (assemble .compP).map encode = some 0x00000007#32 ∧
  (∀ h m n : Nat, h < 8 → (m, n) ∈ [(0x21, 0), (0x22, 1), (0x25, 2)] →
    (assemble (.configure h m)).map (fun i => (encode i).toNat) = some (2 + h * 2 ^ 4 + n * 2 ^ 8) ∧
    (assemble (.measure h m)).map (fun i => (encode i).toNat) = some (4 + h * 2 ^ 4 + n * 2 ^ 8) ∧
    (assemble (.cycle h m)).map (fun i => (encode i).toNat) = some (8 + h * 2 ^ 4 + n * 2 ^ 8)) ∧
  (∀ h m : Nat, 8 ≤ h ∨ m ∉ [0x21, 0x22, 0x25] →
    assemble (.configure h m) = none ∧ assemble (.measure h m) = none ∧ assemble (.cycle h m) = none) ∧
  (assemble (.configure 1 0x25)).map encode = some 0x00000212#32 ∧
  (assemble (.cycle 1 0x22)).map encode = some 0x00000118#32

/-- R100-R104: words written out from the layout `0000000000000000000000MM0HHHOOOO` decode to what they spell. -/
def Obligations.WordsDecodeAsWritten : Prop :=
  decode .thp 0b00000000000000000000000000000001#32 = .ok .identify ∧
  decode .th 0b00000000000000000000000100010010#32 = .ok (.configure 1 .tempHum) ∧
  decode .thp 0b00000000000000000000000000000011#32 = .ok .loadCal ∧
  decode .thp 0b00000000000000000000001001110100#32 = .ok (.measure 7 .tempPress) ∧
  decode .th 0b00000000000000000000000000000101#32 = .ok .compT ∧
  decode .th 0b00000000000000000000000000000110#32 = .ok .compH ∧
  decode .thp 0b00000000000000000000000000000111#32 = .ok .compP ∧
  decode .th 0b00000000000000000000000000011000#32 = .ok (.cycle 1 .temp)

/-! ## The step and the host -/

/-- R311, R105: at the sequencer's turn, a command word that decodes takes one step of `exec`; the turn taken is all that
goes from the interleaving. -/
def Obligations.StepRunsDecoded : Prop :=
  ∀ (s : State) (turns : List Turn) (i : Instr),
    s.env.schedule = .sequencer :: turns → s.phase ≠ .idle → decode s.params.variant s.curCmd = .ok i →
    step s = exec i { s with env := { s.env with schedule := turns } }

/-- R140: what a host write to CMD does. -/
def Obligations.CommandOffered : Prop :=
  ∀ (s : State) (w : Word) (ops : List HostOp) (turns : List Turn),
    s.env.schedule = .host :: turns → s.env.program = .write 0x04 w :: ops →
    (s.status.busy = true → step s = .next { s with
      events := { s.events with overrun := true }
      env := { s.env with schedule := turns, program := ops } }) ∧
    (s.status.busy = false → step s = .next { s with
      curCmd := w
      status := { s.status with busy := true }
      phase := .check
      env := { s.env with schedule := turns, program := ops } })

/-- R72, R41: no host read has a side effect (the value read is all that is added, and it goes to the host); a host write to
EVENTS clears the bits written 1, leaves the others and does nothing else; one at any offset other than those of CMD (R140)
and EVENTS is ignored. -/
def Obligations.HostAccessSideEffects : Prop :=
  ∀ (s : State) (off : BitVec 8) (v : Word) (ops : List HostOp) (turns : List Turn),
    s.env.schedule = .host :: turns → off.toNat % 4 = 0 →
    (s.env.program = .read off :: ops → step s = .next { s with
      env := { s.env with schedule := turns, program := ops, reads := s.env.reads ++ [(off, readOffset s off)] } }) ∧
    (s.env.program = .write off v :: ops → off ≠ 0x04 → off ≠ 0x0C →
      step s = .next { s with env := { s.env with schedule := turns, program := ops } }) ∧
    (s.env.program = .write 0x0C v :: ops → ∃ t, step s = .next t ∧ t.events.word = s.events.word &&& ~~~v ∧
      t = { s with events := t.events, env := { s.env with schedule := turns, program := ops } })

/-- R71: a misaligned access has no meaning and is refused. -/
def Obligations.MisalignedAccessRefused : Prop :=
  ∀ (s : State) (off : BitVec 8) (v : Word) (ops : List HostOp) (turns : List Turn),
    s.env.schedule = .host :: turns → off.toNat % 4 ≠ 0 →
    s.env.program = .read off :: ops ∨ s.env.program = .write off v :: ops →
    step s = .refused (.misalignedHostAccess off)

/-- R73: at an aligned offset no register occupies, a read returns 0 and a write is ignored. -/
def Obligations.UnmappedOffsets : Prop :=
  ∀ (s : State) (off : BitVec 8) (v : Word), off.toNat % 4 = 0 →
    (0x34 ≤ off.toNat ∧ off.toNat ≤ 0x3C) ∨ (0x88 ≤ off.toNat ∧ off.toNat ≤ 0x8C) ∨ 0xBC ≤ off.toNat →
    readOffset s off = 0 ∧ hostWrite off v s = s

/-- R131: WAIT reads STATUS, again and again while BUSY, and is done when BUSY reads 0. -/
def Obligations.WaitPollsStatus : Prop :=
  ∀ (s : State) (ops : List HostOp) (turns : List Turn),
    s.env.schedule = .host :: turns → s.env.program = .wait :: ops →
    step s = .next { s with env := { s.env with
      schedule := turns
      program := if s.status.word.getLsbD 4 then .wait :: ops else ops
      reads := s.env.reads ++ [(0x08, s.status.word)] } }

/-- R371 and vector RST-1: what every offset reads after reset, for every build; the hidden state is empty. -/
def Obligations.ResetReads : Prop :=
  (∀ (p : Params) (e : Env) (off : BitVec 8),
    readOffset (State.resetWith p e) off = if off = 0 then capsWord p else 0) ∧
  readOffset State.reset 0 = 0x00006003#32 ∧
  (∀ (p : Params) (e : Env), (State.resetWith p e).phase = .idle ∧ (State.resetWith p e).curCmd = 0 ∧
    (State.resetWith p e).Quiet)

/-- R370, R373: the platform's reset, at any time, puts every engine register and the hidden state at its reset value, keeps
the build parameters, completes nothing, and does not reset the sensor. That the release of a chip select still held shows on
the port as a CS_DEASSERT is DEDUCED (log entry 8). -/
def Obligations.ResetAbandonsCommand : Prop :=
  ∀ (s : State) (turns : List Turn), s.env.schedule = .reset :: turns →
    ∃ t, step s = .next t ∧ t = State.resetWith s.params t.env ∧
      t.env.port = s.env.port ++ (if s.cs then [.csDeassert] else []) ∧
      t.env.sensor.map Sensor.deselect = s.env.sensor.map Sensor.deselect ∧
      t.env.schedule = turns ∧ t.env.program = s.env.program ∧ t.env.reads = s.env.reads ∧
      t.env.answers = s.env.answers ∧ t.env.draws = s.env.draws

/-! ## Register layouts -/

/-- R31: CAPS reports the build parameters, ignores writes and never changes. -/
def Obligations.CapsReportsParameters : Prop :=
  (∀ p : Params,
    ((capsWord p).getLsbD 0 = true ↔ p.variant = .thp) ∧ (capsWord p).getLsbD 1 = p.rewriteHum ∧
    (capsWord p).getLsbD 2 = p.idRetry ∧ (capsWord p).getLsbD 3 = p.xferTimeoutEn ∧
    (capsWord p).getLsbD 4 = p.h45Signed ∧ (capsWord p).extractLsb' 5 3 = 0 ∧
    (capsWord p).extractLsb' 8 8 = 0x60#8 ∧ (capsWord p).extractLsb' 16 16 = 0) ∧
  capsWord {} = 0x00006003#32 ∧
  (∀ (s : State) (v : Word), readOffset s 0 = capsWord s.params ∧ hostWrite 0 v s = s) ∧
  (∀ s t : State, step s = .next t → readOffset t 0 = readOffset s 0)

/-- R33, R41, R320, R32, R42-R47, R48, R6: in every state, the fields of STATUS and EVENTS stand where the tables put them with
the codes the tables give, reserved bits read 0; CMD reads 0; CHIP_ID and the counts read zero-extended, the results as held,
each at its own offset; each coefficient register reads as its coefficient, extended by its own signedness; in TH ADC_P, P_OUT
and the nine pressure coefficients read 0. -/
def Obligations.RegisterLayouts : Prop :=
  ∀ s : State,
    let session := match s.status.session with | .uninit => 0 | .idConfirmed => 1 | .calLoaded => 2 | .faulted => 3
    let cycle := match s.status.cycle with | .idle => 0 | .inFlight => 1 | .resultReady => 2
    let lastErr := match s.status.lastErr with
      | .ok => 0 | .illegalCmd => 1 | .badState => 2 | .calNotLoaded => 3
      | .noRaw => 4 | .noTfine => 5 | .transport => 6 | .deviceAbsent => 7
    (readOffset s 0x08).toNat =
      session + 2 ^ 2 * cycle + 2 ^ 4 * s.status.busy.toNat +
      2 ^ 5 * s.status.rawValid.toNat + 2 ^ 6 * s.status.tfineValid.toNat + 2 ^ 7 * s.status.tValid.toNat +
      2 ^ 8 * s.status.hValid.toNat + 2 ^ 9 * s.status.pValid.toNat + 2 ^ 10 * s.status.configured.toNat +
      2 ^ 11 * s.status.pDenZero.toNat + 2 ^ 12 * lastErr ∧
    (readOffset s 0x0C).toNat =
      s.events.done.toNat + 2 * s.events.err.toNat + 4 * s.events.overrun.toNat ∧
    readOffset s 0x04 = 0 ∧
    (readOffset s 0x10).toNat = s.regs.chipId.toNat ∧ (readOffset s 0x14).toNat = s.regs.adcT.toNat ∧
    (readOffset s 0x1C).toNat = s.regs.adcH.toNat ∧
    readOffset s 0x20 = s.regs.tFine ∧ readOffset s 0x24 = s.regs.tOut ∧
    readOffset s 0x28 = s.regs.hOut ∧ readOffset s 0x2C = s.regs.hQ10 ∧
    (s.params.variant = .thp → (readOffset s 0x18).toNat = s.regs.adcP.toNat ∧ readOffset s 0x30 = s.regs.pOut) ∧
    (s.params.variant = .th → readOffset s 0x18 = 0 ∧ readOffset s 0x30 = 0) ∧
    (readOffset s 0x40).toInt = s.regs.dig.t1.toNat ∧ (readOffset s 0x44).toInt = s.regs.dig.t2.toInt ∧
    (readOffset s 0x48).toInt = s.regs.dig.t3.toInt ∧ (readOffset s 0x70).toInt = s.regs.dig.h1.toNat ∧
    (readOffset s 0x74).toInt = s.regs.dig.h2.toInt ∧ (readOffset s 0x78).toInt = s.regs.dig.h3.toNat ∧
    (readOffset s 0x7C).toInt = s.regs.dig.h4.toInt ∧ (readOffset s 0x80).toInt = s.regs.dig.h5.toInt ∧
    (readOffset s 0x84).toInt = s.regs.dig.h6.toInt ∧
    (s.params.variant = .thp →
      (readOffset s 0x4C).toInt = s.regs.dig.p1.toNat ∧ (readOffset s 0x50).toInt = s.regs.dig.p2.toInt ∧
      (readOffset s 0x54).toInt = s.regs.dig.p3.toInt ∧ (readOffset s 0x58).toInt = s.regs.dig.p4.toInt ∧
      (readOffset s 0x5C).toInt = s.regs.dig.p5.toInt ∧ (readOffset s 0x60).toInt = s.regs.dig.p6.toInt ∧
      (readOffset s 0x64).toInt = s.regs.dig.p7.toInt ∧ (readOffset s 0x68).toInt = s.regs.dig.p8.toInt ∧
      (readOffset s 0x6C).toInt = s.regs.dig.p9.toInt) ∧
    (s.params.variant = .th → ∀ off : BitVec 8, 0x4C ≤ off.toNat → off.toNat ≤ 0x6F → readOffset s off = 0)

/-- R49: byte `k` of a buffer stands in word `k / 4` at bits `8 (k mod 4) + 7` to `8 (k mod 4)`; bits with no byte read 0. -/
def Obligations.RawBytesPacked : Prop :=
  ∀ s : State,
    (∀ k, k < 28 → (readOffset s (BitVec.ofNat 8 (0x90 + 4 * (k / 4)))).extractLsb' (8 * (k % 4)) 8 = s.regs.rawCal.getD k 0) ∧
    (∀ k, k < 8 → (readOffset s (BitVec.ofNat 8 (0xAC + 4 * (k / 4)))).extractLsb' (8 * (k % 4)) 8 = s.regs.rawTail.getD k 0) ∧
    (∀ k, k < 8 → (readOffset s (BitVec.ofNat 8 (0xB4 + 4 * (k / 4)))).extractLsb' (8 * (k % 4)) 8 = s.regs.rawMeas.getD k 0)

/-! ## Invariants of the whole machine -/

/-- R35-R37, R50, R371: the machine after reset meets the invariant, for every build and whatever stands outside the engine. -/
def Obligations.ResetMeetsInvariant : Prop := State.reset.Inv ∧ ∀ (p : Params) (e : Env), (State.resetWith p e).Inv

/-- R35-R37, R39, R46, R49, R50: from every state that meets the invariant, whoever's turn it is and whatever the transport
answers, a step gives a state that meets it. That STATUS keeps R37's rules is an inference the spec marks as derived. -/
def Obligations.StepKeepsInvariant : Prop := ∀ s t : State, s.Inv → step s = .next t → t.Inv

/-- R11, R332: no step from a state that meets the invariant faults, and the one access that is refused is a misaligned one of
the host. -/
def Obligations.NoTrapUnderInvariant : Prop :=
  ∀ s : State, s.Inv → (∃ t, step s = .next t) ∨
    ∃ off : BitVec 8, off.toNat % 4 ≠ 0 ∧ step s = .refused (.misalignedHostAccess off)

/-- R30, R145, R381: the data registers change only in the commit step of a command, or at reset. -/
def Obligations.DataRegistersChangeAtCommit : Prop :=
  ∀ s t : State, step s = .next t → t.regs ≠ s.regs →
    (nextTurn s.env).1 = .reset ∨ ((nextTurn s.env).1 = .sequencer ∧ s.phase = .commit)

/-- R311: how the sequencer's position moves in one of its steps. -/
def Obligations.PositionAdvances : Prop :=
  ∀ (i : Instr) (s t : State), s.phase ≠ .idle → exec i s = .next t →
    (s.phase = .check → (t.phase = .idle ∧ t.status.lastErr ≠ .ok) ∨
      (t.phase = .run ∧ t.ev = 0 ∧ t.script ≠ []) ∨ (t.phase = .commit ∧ t.script = [])) ∧
    (s.phase = .run →
      (t.ev = s.ev + 1 ∧ t.script = s.script ∧
        t.phase = if t.ev = s.script.length then .commit else .run) ∨
      (t.phase = .idle ∧ t.status.lastErr = .transport) ∨
      (t = { s with env := t.env } ∧ t.env.port = s.env.port)) ∧
    (s.phase = .commit → t.phase = .idle)

/-- R328: a command that completes with a code other than OK leaves every host register as its step found it, but for the
code, BUSY, EVENTS, the abort action's CYCLE, and DEVICE_ABSENT's CHIP_ID and SESSION. -/
def Obligations.ErrorsArePrecise : Prop :=
  ∀ (i : Instr) (s t : State), s.phase ≠ .idle → exec i s = .next t → t.phase = .idle → t.status.lastErr ≠ .ok →
    t.events = { s.events with done := true, err := true } ∧ t.status.busy = false ∧
    (t.status.lastErr ≠ .deviceAbsent →
      t.regs = s.regs ∧
      t.status = { s.status with
        lastErr := t.status.lastErr
        busy := false
        cycle := if beginsCycle i ∧ t.status.lastErr = .transport then .idle else s.status.cycle }) ∧
    (t.status.lastErr = .deviceAbsent → i = .identify ∧
      t.regs = { s.regs with chipId := t.regs.chipId } ∧
      t.status = { s.status with lastErr := .deviceAbsent, busy := false, session := .faulted })

/-- R79, R88: no host access changes a command in flight, STATUS or a data register; EVENTS is all of the engine it reaches. -/
def Obligations.HostCannotDisturbCommand : Prop :=
  ∀ (s t : State) (turns : List Turn), s.env.schedule = .host :: turns → s.status.busy = true → step s = .next t →
    t = { s with events := t.events, env := t.env } ∧
    t.env = { s.env with schedule := turns, program := t.env.program, reads := t.env.reads }

/-- R34: SESSION changes only at the commits of IDENTIFY and LOAD_CAL, and at reset. -/
def Obligations.SessionChangesAt : Prop :=
  ∀ s t : State, step s = .next t → t.status.session ≠ s.status.session →
    (nextTurn s.env).1 = .reset ∨
    ((nextTurn s.env).1 = .sequencer ∧ s.phase = .commit ∧
      (decode s.params.variant s.curCmd = .ok .identify ∨ decode s.params.variant s.curCmd = .ok .loadCal))

/-- R38: CONFIGURED is set by the commit of CONFIGURE and cleared only by reset, and no command checks it. -/
def Obligations.ConfiguredIsInformational : Prop :=
  (∀ (h : BitVec 3) (m : MeasSel) (s : State), s.phase = .commit →
    ∃ t, exec (.configure h m) s = .next t ∧ t.status.configured = true ∧ t.status.lastErr = .ok) ∧
  (∀ s t : State, step s = .next t → s.status.configured = true → t.status.configured = false →
    (nextTurn s.env).1 = .reset) ∧
  (∀ s t : State, step s = .next t → s.status.configured = false → t.status.configured = true →
    (nextTurn s.env).1 = .sequencer ∧ s.phase = .commit ∧ t.status.lastErr = .ok ∧
      ∃ h m, decode s.params.variant s.curCmd = .ok (.configure h m)) ∧
  (∀ (p : Params) (i : Instr) (x : Status) (b : Bool), checkCode p i { x with configured := b } = checkCode p i x)

/-! ## The lifecycle of a command -/

/-- With PHASE = IDLE, where R311 gives the sequencer no move, `exec i` offers the word of `i`: a DESIGN CHOICE of the model, log
entry 9. The offer itself is R140's: accepted, with nothing else done, or dropped while BUSY. -/
def Obligations.ExecOffersItsWord : Prop :=
  ∀ (i : Instr) (s : State), s.phase = .idle →
    (s.status.busy = false → exec i s = .next { s with
      curCmd := encode i, status := { s.status with busy := true }, phase := .check }) ∧
    (s.status.busy = true → exec i s = .next { s with events := { s.events with overrun := true } })

/-- R322, R323, R324: the permission of each command in each session state, and the code a command gets at its check step, in
the order of precedence. -/
def Obligations.CheckCodes : Prop :=
  (∀ (p : Params) (h : BitVec 3) (m : MeasSel) (x : Session),
    sessionCheck p .identify x =
      permission (.ok, .badState, .badState, if p.idRetry then .ok else .badState) x ∧
    sessionCheck p (.configure h m) x = permission (.badState, .ok, .ok, .badState) x ∧
    sessionCheck p .loadCal x = permission (.badState, .ok, .ok, .badState) x ∧
    sessionCheck p (.measure h m) x = permission (.calNotLoaded, .calNotLoaded, .ok, .badState) x ∧
    sessionCheck p (.cycle h m) x = permission (.calNotLoaded, .calNotLoaded, .ok, .badState) x ∧
    sessionCheck p .compT x = permission (.calNotLoaded, .calNotLoaded, .ok, .badState) x ∧
    sessionCheck p .compH x = permission (.calNotLoaded, .calNotLoaded, .ok, .badState) x ∧
    sessionCheck p .compP x = permission (.calNotLoaded, .calNotLoaded, .ok, .badState) x) ∧
  (∀ (p : Params) (i : Instr) (x : Status),
    (i.wellFormed p.variant = false → checkCode p i x = .illegalCmd) ∧
    (i.wellFormed p.variant = true → sessionCheck p i x.session ≠ .ok →
      checkCode p i x = sessionCheck p i x.session) ∧
    (i.wellFormed p.variant = true → sessionCheck p i x.session = .ok →
      (i = .compT → checkCode p i x = if x.rawValid then .ok else .noRaw) ∧
      (i = .compH ∨ i = .compP → checkCode p i x = if x.tfineValid then .ok else .noTfine) ∧
      (i ≠ .compT → i ≠ .compH → i ≠ .compP → checkCode p i x = .ok)))

/-- R141, R143, R172, R321, R327: the check step. A command whose check fails completes with that code and nothing else
changes; no port event is performed. One whose check passes gets its script; MEASURE and CYCLE also clear every validity bit
and P_DEN_ZERO and set CYCLE to IN_FLIGHT; nothing else changes. -/
def Obligations.CheckStepOutcome : Prop :=
  ∀ (i : Instr) (s : State), s.phase = .check →
    (checkCode s.params i s.status ≠ .ok → exec i s = .next { s with
      status := { s.status with lastErr := checkCode s.params i s.status, busy := false }
      events := { s.events with done := true, err := true }
      phase := .idle, script := [], ev := 0, rx := [] }) ∧
    (checkCode s.params i s.status = .ok → exec i s = .next { s with
      status := if beginsCycle i then
          { s.status with rawValid := false, tfineValid := false, tValid := false, hValid := false, pValid := false,
                          pDenZero := false, cycle := .inFlight }
        else s.status
      script := scriptOf s.params i
      ev := 0
      rx := []
      phase := if scriptOf s.params i = [] then .commit else .run })

/-- R123, R142, R158: the script of each command, byte for byte. -/
def Obligations.ScriptBytes : Prop :=
  ∀ (p : Params) (h : BitVec 3) (m : MeasSel),
    let hum : Byte := BitVec.ofNat 8 h.toNat
    let meas : Byte := match m with | .temp => 0x21 | .tempHum => 0x22 | .tempPress => 0x25
    let trig : List PortEvent :=
      .csAssert :: ((if p.rewriteHum then [.xfer 0x72, .xfer hum] else []) ++
        [.xfer 0x74, .xfer meas, .xfer 0x75, .xfer 0x00, .csDeassert])
    let data : List PortEvent := [.csAssert, .xfer 0xF7] ++ List.replicate 8 (.xfer 0x00) ++ [.csDeassert]
    scriptOf p .identify = [.csAssert, .xfer 0xD0, .xfer 0x00, .csDeassert] ∧
    scriptOf p (.configure h m) = [.csAssert, .xfer 0x72, .xfer hum, .xfer 0x74, .xfer meas, .xfer 0x75, .xfer 0x00, .csDeassert] ∧
    scriptOf p .loadCal = [.csAssert, .xfer 0x88] ++ List.replicate 26 (.xfer 0x00) ++ [.csDeassert] ++
      [.csAssert, .xfer 0xE1] ++ List.replicate 7 (.xfer 0x00) ++ [.csDeassert] ∧
    scriptOf p (.measure h m) = trig ++ data ∧
    scriptOf p (.cycle h m) = trig ++ data ∧
    scriptOf p .compT = [] ∧ scriptOf p .compH = [] ∧ scriptOf p .compP = []

/-- R144, R147: a run step performs the event at EV, for each kind of event that succeeds. Where a byte comes from is a DESIGN
CHOICE of the model, log entry 1: from the answers placed, which also clock a sensor attached; with none placed, from the
concrete sensor attached (PRESUMED, log entry 4); with neither, from a draw, which acts as the same answer placed would, be it a
byte, a fault or no answer. -/
def Obligations.RunStepPerformsEvent : Prop :=
  ∀ (i : Instr) (s : State), s.phase = .run →
    let after : Phase := if s.ev + 1 = s.script.length then .commit else .run
    (s.script[s.ev]? = some .csAssert → exec i s = .next { s with
      cs := true, ev := s.ev + 1, phase := after,
      env := { s.env with port := s.env.port ++ [.csAssert], sensor := s.env.sensor.map Sensor.select } }) ∧
    (s.script[s.ev]? = some .csDeassert → exec i s = .next { s with
      cs := false, ev := s.ev + 1, phase := after,
      env := { s.env with port := s.env.port ++ [.csDeassert], sensor := s.env.sensor.map Sensor.deselect } }) ∧
    (∀ (out b : Byte) (rest : List Answer),
      s.script[s.ev]? = some (.xfer out) → s.env.answers = .byte b :: rest → s.env.sensor = none →
      exec i s = .next { s with
        rx := s.rx ++ [b], ev := s.ev + 1, phase := after,
        env := { s.env with port := s.env.port ++ [.xfer out], answers := rest } }) ∧
    (∀ (out : Byte) (sn : Sensor),
      s.script[s.ev]? = some (.xfer out) → s.env.answers = [] → s.env.sensor = some sn →
      exec i s = .next { s with
        rx := s.rx ++ [(sn.transfer (Config.freeByte s.env.draws) out).1], ev := s.ev + 1, phase := after,
        env := { s.env with
          port := s.env.port ++ [.xfer out]
          sensor := some (sn.transfer (Config.freeByte s.env.draws) out).2
          draws := s.env.draws + 1 } }) ∧
    (∀ (out b : Byte) (rest : List Answer) (sn : Sensor),
      s.script[s.ev]? = some (.xfer out) → s.env.answers = .byte b :: rest → s.env.sensor = some sn →
      exec i s = .next { s with
        rx := s.rx ++ [b], ev := s.ev + 1, phase := after,
        env := { s.env with
          port := s.env.port ++ [.xfer out]
          answers := rest
          sensor := some (sn.transfer (Config.freeByte s.env.draws) out).2
          draws := s.env.draws + 1 } }) ∧
    (∀ out : Byte,
      s.script[s.ev]? = some (.xfer out) → s.env.answers = [] → s.env.sensor = none →
      exec i s = exec i { s with env := { s.env with
        answers := [Config.freeAnswer s.env.draws]
        draws := s.env.draws + 1 } })

/-- R144, R147 (93 U6): whatever the transport answers, placed or drawn, a run step that has an event never stops the machine
and writes no data register. -/
def Obligations.RunStepNeverStops : Prop :=
  ∀ (i : Instr) (s : State), s.phase = .run → s.ev < s.script.length →
    ∃ t, exec i s = .next t ∧ t.regs = s.regs ∧ (t.phase ≠ .idle → t.status = s.status ∧ t.events = s.events)

/-- R146, R176, R325: a transfer that fails closes the frame, performs the abort action of MEASURE and CYCLE, and completes
with TRANSPORT; no data register is written. A transfer fails by a fault, or unanswered where XFER_TIMEOUT_EN is 1. A concrete
sensor attached is left in any state (93 U10). -/
def Obligations.FailedTransferAborts : Prop :=
  ∀ (i : Instr) (s : State) (out : Byte) (a : Answer) (rest : List Answer),
    s.phase = .run → s.script[s.ev]? = some (.xfer out) → s.env.answers = a :: rest →
    a = .fault ∨ (a = .noAnswer ∧ s.params.xferTimeoutEn = true) →
    let sensor := s.env.sensor.map (Config.sensorAfterFault s.env.draws)
    exec i s = .next { s with
      status := { s.status with
        lastErr := .transport
        busy := false
        cycle := if beginsCycle i then .idle else s.status.cycle }
      events := { s.events with done := true, err := true }
      phase := .idle
      script := []
      ev := 0
      rx := []
      cs := false
      env := { s.env with
        port := s.env.port ++ (if s.cs then [.xfer out, .csDeassert] else [.xfer out])
        answers := rest
        sensor := if s.cs then sensor.map Sensor.deselect else sensor
        draws := s.env.draws + 1 } }

/-- R144, R147, R387: with XFER_TIMEOUT_EN = 0 a transfer the transport does not answer is not taken: the engine stays where it
is with BUSY as it was, and nothing is performed on the port. That the model takes a step here, which uses up the one answer
placed, is its DESIGN CHOICE, log entry 1; a drawn answer acts as a placed one (RunStepPerformsEvent). -/
def Obligations.UnansweredTransferWaits : Prop :=
  ∀ (i : Instr) (s : State) (out : Byte) (rest : List Answer),
    s.phase = .run → s.script[s.ev]? = some (.xfer out) → s.env.answers = .noAnswer :: rest →
    s.params.xferTimeoutEn = false →
    exec i s = .next { s with env := { s.env with answers := rest } }

/-- R141-R144, R386: a legal command whose check passes and whose every transfer is answered with a byte reaches its commit
step after its check step and one step per event, whatever the command: the port has seen its script in order, RX holds the
bytes received in order, and no data register has changed. -/
def Obligations.AnsweredCommandReachesCommit : Prop :=
  ∀ (i : Instr) (s : State) (bytes : List Byte) (rest : List Answer) (turns : List Turn),
    s.phase = .check → decode s.params.variant s.curCmd = .ok i → checkCode s.params i s.status = .ok →
    s.cs = false → s.env.sensor = none →
    bytes.length = transfersOf s.params i → s.env.answers = bytes.map Answer.byte ++ rest →
    s.env.schedule = List.replicate ((scriptOf s.params i).length + 1) Turn.sequencer ++ turns →
    Host.Core.run core ((scriptOf s.params i).length + 1) s = Host.Outcome.next (σ := State) { s with
      status := if beginsCycle i then s.status.beginCycle else s.status
      phase := .commit
      script := scriptOf s.params i
      ev := (scriptOf s.params i).length
      rx := bytes
      env := { s.env with port := s.env.port ++ scriptOf s.params i, answers := rest, schedule := turns } }

/-! ## What each command commits -/

/-- R152: IDENTIFY's commit, and what FAULTED then forbids. -/
def Obligations.IdentifyCommits : Prop :=
  (∀ (s : State) (throwaway chip : Byte), s.phase = .commit → s.rx = [throwaway, chip] →
    exec .identify s = .next { s with
      regs := { s.regs with chipId := chip }
      status := { s.status with
        session := if chip = 0x60 then .idConfirmed else .faulted
        lastErr := if chip = 0x60 then .ok else .deviceAbsent
        busy := false }
      events := { s.events with done := true, err := if chip = 0x60 then s.events.err else true }
      phase := .idle, script := [], ev := 0, rx := [] }) ∧
  (∀ (s : State) (i : Instr), s.phase = .check → s.status.session = .faulted → i.wellFormed s.params.variant = true →
    ¬ (i = .identify ∧ s.params.idRetry = true) →
    ∃ t, exec i s = .next t ∧ t.status.lastErr = .badState ∧ t.status.session = .faulted ∧ t.regs = s.regs ∧
      t.env = s.env ∧ t.phase = .idle)

/-- R157: CONFIGURE's commit. -/
def Obligations.ConfigureCommits : Prop :=
  ∀ (h : BitVec 3) (m : MeasSel) (s : State), s.phase = .commit →
    exec (.configure h m) s = .next { s with
      status := { s.status with configured := true, lastErr := .ok, busy := false }
      events := { s.events with done := true }
      phase := .idle, script := [], ev := 0, rx := [] }

/-- R160, R166, R200-R211: LOAD_CAL's commit from the bytes of its two frames, `throw1` and `throw2` being their throwaway
bytes. -/
def Obligations.LoadCalCommits : Prop :=
  ∀ (s : State) (throw1 throw2 : Byte) (cal tail : List Byte),
    s.phase = .commit → cal.length = 26 → tail.length = 7 → s.rx = throw1 :: (cal ++ throw2 :: tail) →
    exec .loadCal s = .next { s with
      regs := { s.regs with rawCal := cal, rawTail := tail, dig := decodeCalibration s.params cal tail }
      status := { s.status with
        session := .calLoaded, cycle := .idle, rawValid := false, tfineValid := false, tValid := false, hValid := false,
        pValid := false, pDenZero := false, lastErr := .ok, busy := false }
      events := { s.events with done := true }
      phase := .idle, script := [], ev := 0, rx := [] }

/-- R175: MEASURE's commit: the bytes of the trigger frame and the throwaway byte are dropped, the eight data bytes are kept
and decoded. -/
def Obligations.MeasureCommits : Prop :=
  ∀ (h : BitVec 3) (m : MeasSel) (s : State) (trig meas : List Byte) (throwaway : Byte),
    s.phase = .commit → trig.length = (if s.params.rewriteHum then 6 else 4) → meas.length = 8 →
    s.rx = trig ++ throwaway :: meas →
    exec (.measure h m) s = .next { s with
      regs := { s.regs with
        rawMeas := meas
        adcT := (decodeMeasurement meas).temp
        adcH := (decodeMeasurement meas).hum
        adcP := if s.params.variant = .thp then (decodeMeasurement meas).press else s.regs.adcP }
      status := { s.status with rawValid := true, lastErr := .ok, busy := false }
      events := { s.events with done := true }
      phase := .idle, script := [], ev := 0, rx := [] }

/-- R262, R253: COMP_T's commit; that a second COMP_T in the same cycle writes the same values is an inference the spec marks
as derived. -/
def Obligations.CompTCommits : Prop :=
  ∀ s : State, s.phase = .commit →
    let result := compTemp (s.regs.adcT.zeroExtend 32) (s.regs.dig.t1.zeroExtend 32) (s.regs.dig.t2.signExtend 32)
      (s.regs.dig.t3.signExtend 32)
    ∃ t, exec .compT s = .next t ∧ t = { s with
        regs := { s.regs with tOut := result.1, tFine := result.2 }
        status := { s.status with
          tfineValid := true, tValid := true, lastErr := .ok, busy := false,
          cycle := if s.status.hValid = true ∧ (s.status.pValid = true ∨ s.params.variant = .th) then .resultReady
            else s.status.cycle }
        events := { s.events with done := true }
        phase := .idle, script := [], ev := 0, rx := [] } ∧
      t.regs.temperature = result

/-- R272, R253: COMP_H's commit, from the T_FINE held. -/
def Obligations.CompHCommits : Prop :=
  ∀ s : State, s.phase = .commit →
    let result := compHum (s.regs.adcH.zeroExtend 32) s.regs.tFine (s.regs.dig.h1.zeroExtend 32)
      (s.regs.dig.h2.signExtend 32) (s.regs.dig.h3.zeroExtend 32) (s.regs.dig.h4.signExtend 32)
      (s.regs.dig.h5.signExtend 32) (s.regs.dig.h6.signExtend 32)
    exec .compH s = .next { s with
      regs := { s.regs with hQ10 := result.1, hOut := result.2 }
      status := { s.status with
        hValid := true, lastErr := .ok, busy := false,
        cycle := if s.status.tValid = true ∧ (s.status.pValid = true ∨ s.params.variant = .th) then .resultReady
          else s.status.cycle }
      events := { s.events with done := true }
      phase := .idle, script := [], ev := 0, rx := [] }

/-- R282, R253: COMP_P's commit, from the T_FINE held; a zero denominator is reported by P_DEN_ZERO with LAST_ERR = OK. -/
def Obligations.CompPCommits : Prop :=
  ∀ s : State, s.phase = .commit →
    let d := s.regs.dig
    let result := compPress (s.regs.adcP.zeroExtend 32) s.regs.tFine (d.p1.zeroExtend 32) (d.p2.signExtend 32)
      (d.p3.signExtend 32) (d.p4.signExtend 32) (d.p5.signExtend 32) (d.p6.signExtend 32) (d.p7.signExtend 32)
      (d.p8.signExtend 32) (d.p9.signExtend 32)
    exec .compP s = .next { s with
      regs := { s.regs with pOut := result.1 }
      status := { s.status with
        pDenZero := result.2, pValid := true, lastErr := .ok, busy := false,
        cycle := if s.status.tValid = true ∧ s.status.hValid = true then .resultReady else s.status.cycle }
      events := { s.events with done := true }
      phase := .idle, script := [], ev := 0, rx := [] }

/-- R302: CYCLE's commit: the decode, the temperature, the humidity and (THP) the pressure from the `t_fine` of the same
commit, all in one step. -/
def Obligations.CycleCommits : Prop :=
  ∀ (h : BitVec 3) (m : MeasSel) (s : State) (trig meas : List Byte) (throwaway : Byte),
    s.phase = .commit → trig.length = (if s.params.rewriteHum then 6 else 4) → meas.length = 8 →
    s.rx = trig ++ throwaway :: meas →
    let thp := s.params.variant = .thp
    let d := s.regs.dig
    let counts := decodeMeasurement meas
    let t := compTemp (counts.temp.zeroExtend 32) (d.t1.zeroExtend 32) (d.t2.signExtend 32) (d.t3.signExtend 32)
    let hum := compHum (counts.hum.zeroExtend 32) t.2 (d.h1.zeroExtend 32) (d.h2.signExtend 32) (d.h3.zeroExtend 32)
      (d.h4.signExtend 32) (d.h5.signExtend 32) (d.h6.signExtend 32)
    let p := compPress (counts.press.zeroExtend 32) t.2 (d.p1.zeroExtend 32) (d.p2.signExtend 32) (d.p3.signExtend 32)
      (d.p4.signExtend 32) (d.p5.signExtend 32) (d.p6.signExtend 32) (d.p7.signExtend 32) (d.p8.signExtend 32)
      (d.p9.signExtend 32)
    exec (.cycle h m) s = .next { s with
      regs := { s.regs with
        rawMeas := meas
        adcT := counts.temp
        adcH := counts.hum
        adcP := if thp then counts.press else s.regs.adcP
        tFine := t.2
        tOut := t.1
        hQ10 := hum.1
        hOut := hum.2
        pOut := if thp then p.1 else s.regs.pOut }
      status := { s.status with
        rawValid := true, tfineValid := true, tValid := true, hValid := true,
        pValid := if thp then true else s.status.pValid,
        pDenZero := if thp then p.2 else s.status.pDenZero,
        cycle := .resultReady, lastErr := .ok, busy := false }
      events := { s.events with done := true }
      phase := .idle, script := [], ev := 0, rx := [] }

/-- R303, an inference the spec marks as derived: given the same received bytes, CYCLE leaves every host register with the value the sequence MEASURE, COMP_T, COMP_H
and (THP) COMP_P leaves, each run to completion; the sequence performs no further port event. -/
def Obligations.CycleEqualsSequence : Prop :=
  ∀ (h : BitVec 3) (m : MeasSel) (s : State),
    s.phase = .commit → s.rx.length = (if s.params.rewriteHum then 15 else 13) →
    s.status.session = .calLoaded → s.status.Begun →
    ∃ c t, exec (.cycle h m) s = .next c ∧
      (let three := andThen (andThen (exec (.measure h m) s) (runPlain .compT)) (runPlain .compH)
       (if s.params.variant = .thp then andThen three (runPlain .compP) else three) = .next t) ∧
      (∀ off, readOffset t off = readOffset c off) ∧ t.env = c.env

/-- R305, an inference the spec marks as derived: two CYCLE commits over the same coefficients and the same eight data bytes write the same results, whatever the
trigger frame and the throwaway byte were, and whatever the states held before. -/
def Obligations.CycleRepeatable : Prop :=
  ∀ (h h' : BitVec 3) (m m' : MeasSel) (s s' t t' : State) (trig trig' meas : List Byte) (x x' : Byte),
    s.phase = .commit → s'.phase = .commit → s.params = s'.params → s.regs.dig = s'.regs.dig →
    trig.length = (if s.params.rewriteHum then 6 else 4) → trig'.length = trig.length → meas.length = 8 →
    s.rx = trig ++ x :: meas → s'.rx = trig' ++ x' :: meas →
    exec (.cycle h m) s = .next t → exec (.cycle h' m') s' = .next t' →
    t.regs.adcT = t'.regs.adcT ∧ t.regs.adcH = t'.regs.adcH ∧ t.regs.tFine = t'.regs.tFine ∧ t.regs.tOut = t'.regs.tOut ∧
    t.regs.hOut = t'.regs.hOut ∧ t.regs.hQ10 = t'.regs.hQ10 ∧ t.regs.rawMeas = t'.regs.rawMeas ∧
    (s.params.variant = .thp →
      t.regs.adcP = t'.regs.adcP ∧ t.regs.pOut = t'.regs.pOut ∧ t.status.pDenZero = t'.status.pDenZero)

/-! ## Decoding the bytes -/

/-- R231, R232, R233: the three counts of a burst as numbers. -/
def Obligations.CountsAssembled : Prop :=
  ∀ b0 b1 b2 b3 b4 b5 b6 b7 : Byte,
    let c := decodeMeasurement [b0, b1, b2, b3, b4, b5, b6, b7]
    c.press.toNat = (b0.toNat * 2 ^ 16 + b1.toNat * 2 ^ 8 + b2.toNat) / 2 ^ 4 ∧
    c.temp.toNat = (b3.toNat * 2 ^ 16 + b4.toNat * 2 ^ 8 + b5.toNat) / 2 ^ 4 ∧
    c.hum.toNat = b6.toNat * 2 ^ 8 + b7.toNat

/-- R201, R202, R204-R206, R209, R210: the byte-aligned coefficients as numbers. The byte positions are what the spec gives
from general knowledge (log entry 10). -/
def Obligations.CoefficientsAssembled : Prop :=
  ∀ (p : Params) (cal tail : List Byte),
    let d := decodeCalibration p cal tail
    let u (i : Nat) : Nat := (cal.getD (2 * i + 1) 0).toNat * 256 + (cal.getD (2 * i) 0).toNat
    let sg (x : Nat) : Int := if x < 32768 then (x : Int) else (x : Int) - 65536
    d.t1.toNat = u 0 ∧ d.t2.toInt = sg (u 1) ∧ d.t3.toInt = sg (u 2) ∧
    (p.variant = .thp → d.p1.toNat = u 3 ∧ d.p2.toInt = sg (u 4) ∧ d.p3.toInt = sg (u 5) ∧ d.p4.toInt = sg (u 6) ∧
      d.p5.toInt = sg (u 7) ∧ d.p6.toInt = sg (u 8) ∧ d.p7.toInt = sg (u 9) ∧ d.p8.toInt = sg (u 10) ∧
      d.p9.toInt = sg (u 11)) ∧
    (p.variant = .th → d.p1 = 0 ∧ d.p2 = 0 ∧ d.p3 = 0 ∧ d.p4 = 0 ∧ d.p5 = 0 ∧ d.p6 = 0 ∧ d.p7 = 0 ∧ d.p8 = 0 ∧ d.p9 = 0) ∧
    d.h1 = cal.getD 25 0 ∧
    d.h2.toInt = sg ((tail.getD 1 0).toNat * 256 + (tail.getD 0 0).toNat) ∧
    d.h3 = tail.getD 2 0 ∧ d.h6 = tail.getD 6 0

/-- R207, R208: the nibble-packed humidity coefficients as numbers, under both values of H45_SIGNED. -/
def Obligations.NibbleFieldsAssembled : Prop :=
  ∀ (p : Params) (cal tail : List Byte),
    let d := decodeCalibration p cal tail
    let shared := (tail.getD 4 0).toNat
    (p.h45Signed = false →
      d.h4.toInt = ((tail.getD 3 0).toNat * 16 + shared % 16 : Nat) ∧
      d.h5.toInt = ((tail.getD 5 0).toNat * 16 + shared / 16 : Nat)) ∧
    (p.h45Signed = true →
      d.h4.toInt = (tail.getD 3 0).toInt * 16 + (shared % 16 : Nat) ∧
      d.h5.toInt = (tail.getD 5 0).toInt * 16 + (shared / 16 : Nat))

/-- R212 (a), (c), an inference the spec marks as derived: swapping the two bytes of a 16-bit field changes it unless they
are equal; a change to one byte changes only the fields that byte feeds, and the shared tail byte alone feeds two. -/
def Obligations.ByteOrderMatters : Prop :=
  (∀ lo hi : Byte, le16 lo hi = le16 hi lo ↔ lo = hi) ∧
  (∀ (p : Params) (cal tail : List Byte) (k : Nat) (b : Byte), tail.length = 7 → k < 7 →
    let d := decodeCalibration p cal tail
    let d' := decodeCalibration p cal (tail.set k b)
    (k ≠ 3 → k ≠ 4 → d'.h4 = d.h4) ∧ (k ≠ 5 → k ≠ 4 → d'.h5 = d.h5) ∧ (k ≠ 0 → k ≠ 1 → d'.h2 = d.h2) ∧
    (k ≠ 2 → d'.h3 = d.h3) ∧ (k ≠ 6 → d'.h6 = d.h6) ∧
    d'.h1 = d.h1 ∧ d'.t1 = d.t1 ∧ d'.t2 = d.t2 ∧ d'.t3 = d.t3 ∧ d'.p1 = d.p1 ∧ d'.p2 = d.p2 ∧ d'.p3 = d.p3 ∧
    d'.p4 = d.p4 ∧ d'.p5 = d.p5 ∧ d'.p6 = d.p6 ∧ d'.p7 = d.p7 ∧ d'.p8 = d.p8 ∧ d'.p9 = d.p9) ∧
  (∀ (p : Params) (cal tail : List Byte) (k : Nat) (b : Byte), cal.length = 26 → k < 26 →
    let d := decodeCalibration p cal tail
    let d' := decodeCalibration p (cal.set k b) tail
    (k / 2 ≠ 0 → d'.t1 = d.t1) ∧ (k / 2 ≠ 1 → d'.t2 = d.t2) ∧ (k / 2 ≠ 2 → d'.t3 = d.t3) ∧
    (k / 2 ≠ 3 → d'.p1 = d.p1) ∧ (k / 2 ≠ 4 → d'.p2 = d.p2) ∧ (k / 2 ≠ 5 → d'.p3 = d.p3) ∧
    (k / 2 ≠ 6 → d'.p4 = d.p4) ∧ (k / 2 ≠ 7 → d'.p5 = d.p5) ∧ (k / 2 ≠ 8 → d'.p6 = d.p6) ∧
    (k / 2 ≠ 9 → d'.p7 = d.p7) ∧ (k / 2 ≠ 10 → d'.p8 = d.p8) ∧ (k / 2 ≠ 11 → d'.p9 = d.p9) ∧
    (k ≠ 25 → d'.h1 = d.h1) ∧ d'.h2 = d.h2 ∧ d'.h3 = d.h3 ∧ d'.h4 = d.h4 ∧ d'.h5 = d.h5 ∧ d'.h6 = d.h6)

/-! ## Compensation -/

/-- R261, R250: the temperature function is the integer formula with every operation wrapped to 32 bits. The formula's
grouping is what the spec gives from general knowledge (log entry 10). -/
def Obligations.TemperatureFormula : Prop :=
  ∀ adcT t1 t2 t3 : Word,
    ((compTemp adcT t1 t2 t3).1.toInt, (compTemp adcT t1 t2 t3).2.toInt) =
      tempReference adcT.toInt t1.toInt t2.toInt t3.toInt

/-- R271, R250: the humidity function is the integer formula with every operation wrapped to 32 bits, clamped, in Q10 and in
thousandths. The polynomial is what the spec gives from general knowledge (log entry 10). -/
def Obligations.HumidityFormula : Prop :=
  ∀ adcH tf h1 h2 h3 h4 h5 h6 : Word,
    (((compHum adcH tf h1 h2 h3 h4 h5 h6).1.toNat : Int), ((compHum adcH tf h1 h2 h3 h4 h5 h6).2.toNat : Int)) =
      humReference adcH.toInt tf.toInt h1.toInt h2.toInt h3.toInt h4.toInt h5.toInt h6.toInt

/-- R281, R250: the pressure function is the integer formula with every operation wrapped to 32 bits, the zero guard and the
split division included. The formula is what the spec gives from general knowledge (log entry 10). -/
def Obligations.PressureFormula : Prop :=
  ∀ adcP tf p1 p2 p3 p4 p5 p6 p7 p8 p9 : Word,
    (((compPress adcP tf p1 p2 p3 p4 p5 p6 p7 p8 p9).1.toNat : Int), (compPress adcP tf p1 p2 p3 p4 p5 p6 p7 p8 p9).2) =
      pressReference adcP.toInt tf.toInt p1.toInt p2.toInt p3.toInt p4.toInt p5.toInt p6.toInt p7.toInt p8.toInt p9.toInt

/-- R273 (a), (e), an inference the spec marks as derived: for every input the humidity lies in 0 to 102400 (Q10) and 0 to 100000 (thousandths), the latter being the
former scaled down. -/
def Obligations.HumidityClamped : Prop :=
  ∀ adcH tf h1 h2 h3 h4 h5 h6 : Word,
    let r := compHum adcH tf h1 h2 h3 h4 h5 h6
    r.1.toNat ≤ 102400 ∧ r.2.toNat ≤ 100000 ∧ r.2.toNat = r.1.toNat * 1000 / 1024

/-- R283, an inference the spec marks as derived: the scale before the denominator lies in -8192 to 8191, so that with an unsigned 16-bit `dig_P1` the denominator is
zero exactly when P1 = 0, or P1 = 1 and that scale is negative; and then the pressure is the sentinel 0 with the flag. -/
def Obligations.PressureDenominator : Prop :=
  ∀ (adcP tf p2 p3 p4 p5 p6 p7 p8 p9 : Word) (p1 : BitVec 16),
    let scale := (pressScale tf p2 p3).toInt
    let r := compPress adcP tf (p1.zeroExtend 32) p2 p3 p4 p5 p6 p7 p8 p9
    scale ≥ -8192 ∧ scale ≤ 8191 ∧
    (r.2 = true ↔ p1 = 0 ∨ (p1 = 1 ∧ scale < 0)) ∧ (r.2 = true → r.1 = 0)

/-- R284, an inference the spec marks as derived: the two division paths as natural numbers: below the half-range no bit is lost by doubling; above it the engine
divides first, which loses at most one. -/
def Obligations.SplitDivision : Prop :=
  ∀ p den : Word, den ≠ 0 →
    (p.toNat < 2 ^ 31 → (splitDivide p den).toNat = 2 * p.toNat / den.toNat) ∧
    (2 ^ 31 ≤ p.toNat → (splitDivide p den).toNat = 2 * (p.toNat / den.toNat) % 2 ^ 32 ∧
      2 * p.toNat / den.toNat ≤ 2 * (p.toNat / den.toNat) + 1)

/-! ## Frames -/

/-- R150, R155, R157, R160, R166, R211, R328: in no step of IDENTIFY, CONFIGURE or LOAD_CAL does anything change but what
their rules name: IDENTIFY writes CHIP_ID and SESSION, CONFIGURE writes CONFIGURED, LOAD_CAL the raw calibration bytes, the
coefficients, SESSION, CYCLE, the validity bits and P_DEN_ZERO; and what completion writes. -/
def Obligations.ProtocolFrame : Prop :=
  ∀ s t : State, s.phase ≠ .idle →
    (exec .identify s = .next t →
      t.params = s.params ∧ t.curCmd = s.curCmd ∧ t.regs = { s.regs with chipId := t.regs.chipId } ∧
      t.status = { s.status with session := t.status.session, lastErr := t.status.lastErr, busy := t.status.busy } ∧
      t.events.overrun = s.events.overrun) ∧
    (∀ h m, exec (.configure h m) s = .next t →
      t.params = s.params ∧ t.curCmd = s.curCmd ∧ t.regs = s.regs ∧
      t.status = { s.status with
        configured := t.status.configured, lastErr := t.status.lastErr, busy := t.status.busy } ∧
      t.events.overrun = s.events.overrun) ∧
    (exec .loadCal s = .next t →
      t.params = s.params ∧ t.curCmd = s.curCmd ∧
      t.regs = { s.regs with rawCal := t.regs.rawCal, rawTail := t.regs.rawTail, dig := t.regs.dig } ∧
      t.status.configured = s.status.configured ∧ t.events.overrun = s.events.overrun)

/-- R170-R176, R300-R304: in no step of MEASURE or CYCLE does the chip ID, a calibration byte, a coefficient, SESSION or
CONFIGURED change; MEASURE writes no compensation result. -/
def Obligations.MeasureCycleFrame : Prop :=
  ∀ (h : BitVec 3) (m : MeasSel) (s t : State), s.phase ≠ .idle →
    (exec (.measure h m) s = .next t →
      t.params = s.params ∧ t.curCmd = s.curCmd ∧
      t.regs = { s.regs with
        adcT := t.regs.adcT, adcP := t.regs.adcP, adcH := t.regs.adcH, rawMeas := t.regs.rawMeas } ∧
      t.status.session = s.status.session ∧ t.status.configured = s.status.configured ∧
      t.events.overrun = s.events.overrun) ∧
    (exec (.cycle h m) s = .next t →
      t.params = s.params ∧ t.curCmd = s.curCmd ∧
      t.regs = { t.regs with
        chipId := s.regs.chipId, dig := s.regs.dig, rawCal := s.regs.rawCal, rawTail := s.regs.rawTail } ∧
      t.status.session = s.status.session ∧ t.status.configured = s.status.configured ∧
      t.events.overrun = s.events.overrun)

/-- R52, R260, R270, R280: in no step of a compensation command does anything change but its result registers, its validity
bits, CYCLE and what completion writes; nothing happens on the port. -/
def Obligations.CompensationFrame : Prop :=
  ∀ s t : State, s.phase ≠ .idle → s.phase ≠ .run →
    (exec .compT s = .next t →
      t.params = s.params ∧ t.curCmd = s.curCmd ∧ t.cs = s.cs ∧ t.env = s.env ∧
      t.regs = { s.regs with tFine := t.regs.tFine, tOut := t.regs.tOut } ∧
      t.status = { s.status with
        tfineValid := t.status.tfineValid, tValid := t.status.tValid, cycle := t.status.cycle,
        lastErr := t.status.lastErr, busy := t.status.busy } ∧ t.events.overrun = s.events.overrun) ∧
    (exec .compH s = .next t →
      t.params = s.params ∧ t.curCmd = s.curCmd ∧ t.cs = s.cs ∧ t.env = s.env ∧
      t.regs = { s.regs with hQ10 := t.regs.hQ10, hOut := t.regs.hOut } ∧
      t.status = { s.status with
        hValid := t.status.hValid, cycle := t.status.cycle, lastErr := t.status.lastErr, busy := t.status.busy } ∧
      t.events.overrun = s.events.overrun) ∧
    (exec .compP s = .next t →
      t.params = s.params ∧ t.curCmd = s.curCmd ∧ t.cs = s.cs ∧ t.env = s.env ∧
      t.regs = { s.regs with pOut := t.regs.pOut } ∧
      t.status = { s.status with
        pValid := t.status.pValid, pDenZero := t.status.pDenZero, cycle := t.status.cycle,
        lastErr := t.status.lastErr, busy := t.status.busy } ∧ t.events.overrun = s.events.overrun)

/-- R3, R76: no sequencer step touches the host's program, what the host has read, or the interleaving. -/
def Obligations.SequencerLeavesHostAlone : Prop :=
  ∀ (i : Instr) (s t : State), exec i s = .next t →
    t.params = s.params ∧ t.env.program = s.env.program ∧ t.env.reads = s.env.reads ∧ t.env.schedule = s.env.schedule ∧
    ∃ events, t.env.port = s.env.port ++ events

/-! ## The concrete sensor -/

/-- R82, R84, R148, R346: a read frame to the concrete sensor returns the registers from its address on, one a transfer, and
the data burst those of one measurement whatever conversions end inside the frame; what it sends during the control byte is
free. The sensor is what the spec gives from general knowledge (log entry 4). -/
def Obligations.SensorBurstRead : Prop :=
  (∀ (sn : Sensor) (addr : Byte) (free : Nat → Byte) (n : Nat),
    addr.getLsbD 7 = true → (∀ k, k < n → (sn.read (addr + BitVec.ofNat 8 k)).isSome = true) →
    ∀ k, k < n → sn.read (addr + BitVec.ofNat 8 k) = some (sn.burstByte free (fun _ => none) addr k)) ∧
  (∀ (sn : Sensor) (free : Nat → Byte) (ends : Nat → Ending) (k : Nat), k < 8 →
    sn.read (addrMeas + BitVec.ofNat 8 k) = some (sn.burstByte free ends addrMeas k))

/-- R85, R345, R346: every write of a forced-mode code to ctrl_meas triggers one more conversion, with the temperature and
pressure oversampling of that byte and the humidity oversampling last written before it; any other byte triggers none. Each end
of a conversion takes one away, and the sensor returns to sleep after the last. That conversions wait for one another, each with
the oversampling of its own trigger, is a DESIGN CHOICE of the model (log entry 15), and the sensor's register map what the spec
gives from general knowledge (PRESUMED, log entry 4). -/
def Obligations.ForcedWriteTriggers : Prop :=
  (∀ (sn : Sensor) (v : Byte), v.toNat % 4 = 1 ∨ v.toNat % 4 = 2 →
    sn.write 0xF4 v = { sn with
      ctrlMeas := v
      osrsH := sn.ctrlHum
      measuring := sn.measuring ++
        [{ osrsT := BitVec.ofNat 3 (v.toNat / 32), osrsP := BitVec.ofNat 3 (v.toNat / 4 % 8), osrsH := sn.ctrlHum }] }) ∧
  (∀ (sn : Sensor) (v : Byte), v.toNat % 4 = 0 ∨ v.toNat % 4 = 3 →
    sn.write 0xF4 v = { sn with ctrlMeas := v, osrsH := sn.ctrlHum }) ∧
  (∀ (sn : Sensor) (p t : BitVec 20) (h : BitVec 16) (c : Conversion) (rest : List Conversion), sn.measuring = c :: rest →
    ∃ mode, sn.converted p t h = { sn with
        press := if c.osrsP = 0 then 0x80000 else p
        temp := if c.osrsT = 0 then 0x80000 else t
        hum := if c.osrsH = 0 then 0x8000 else h
        ctrlMeas := mode
        measuring := rest } ∧
      (rest = [] → mode.toNat = sn.ctrlMeas.toNat / 4 * 4) ∧ (rest ≠ [] → mode = sn.ctrlMeas)) ∧
  (∀ (sn : Sensor) (p t : BitVec 20) (h : BitVec 16), sn.measuring = [] → sn.converted p t h = sn)
end

