-- ==== Sys2Proof/Laws/State.lean ====
section
/-! SUPPORT. What each named operation does to each field it leaves or writes, one lemma a field, true by unfolding: later
proofs rewrite with these and unfold no record update. -/

namespace Sys2Proof.Machine

/-! ## STATUS -/

@[simp] theorem Status.accept_session (x : Status) : (Status.accept x).session = x.session := rfl
@[simp] theorem Status.accept_cycle (x : Status) : (Status.accept x).cycle = x.cycle := rfl
@[simp] theorem Status.accept_busy (x : Status) : (Status.accept x).busy = true := rfl
@[simp] theorem Status.accept_rawValid (x : Status) : (Status.accept x).rawValid = x.rawValid := rfl
@[simp] theorem Status.accept_tfineValid (x : Status) : (Status.accept x).tfineValid = x.tfineValid := rfl
@[simp] theorem Status.accept_tValid (x : Status) : (Status.accept x).tValid = x.tValid := rfl
@[simp] theorem Status.accept_hValid (x : Status) : (Status.accept x).hValid = x.hValid := rfl
@[simp] theorem Status.accept_pValid (x : Status) : (Status.accept x).pValid = x.pValid := rfl
@[simp] theorem Status.accept_configured (x : Status) : (Status.accept x).configured = x.configured := rfl
@[simp] theorem Status.accept_pDenZero (x : Status) : (Status.accept x).pDenZero = x.pDenZero := rfl
@[simp] theorem Status.accept_lastErr (x : Status) : (Status.accept x).lastErr = x.lastErr := rfl

@[simp] theorem Status.complete_session (c : Code) (x : Status) : (Status.complete c x).session = x.session := rfl
@[simp] theorem Status.complete_cycle (c : Code) (x : Status) : (Status.complete c x).cycle = x.cycle := rfl
@[simp] theorem Status.complete_busy (c : Code) (x : Status) : (Status.complete c x).busy = false := rfl
@[simp] theorem Status.complete_rawValid (c : Code) (x : Status) : (Status.complete c x).rawValid = x.rawValid := rfl
@[simp] theorem Status.complete_tfineValid (c : Code) (x : Status) : (Status.complete c x).tfineValid = x.tfineValid := rfl
@[simp] theorem Status.complete_tValid (c : Code) (x : Status) : (Status.complete c x).tValid = x.tValid := rfl
@[simp] theorem Status.complete_hValid (c : Code) (x : Status) : (Status.complete c x).hValid = x.hValid := rfl
@[simp] theorem Status.complete_pValid (c : Code) (x : Status) : (Status.complete c x).pValid = x.pValid := rfl
@[simp] theorem Status.complete_configured (c : Code) (x : Status) : (Status.complete c x).configured = x.configured := rfl
@[simp] theorem Status.complete_pDenZero (c : Code) (x : Status) : (Status.complete c x).pDenZero = x.pDenZero := rfl
@[simp] theorem Status.complete_lastErr (c : Code) (x : Status) : (Status.complete c x).lastErr = c := rfl

@[simp] theorem Status.clearResults_session (x : Status) : (Status.clearResults x).session = x.session := rfl
@[simp] theorem Status.clearResults_cycle (x : Status) : (Status.clearResults x).cycle = x.cycle := rfl
@[simp] theorem Status.clearResults_busy (x : Status) : (Status.clearResults x).busy = x.busy := rfl
@[simp] theorem Status.clearResults_rawValid (x : Status) : (Status.clearResults x).rawValid = false := rfl
@[simp] theorem Status.clearResults_tfineValid (x : Status) : (Status.clearResults x).tfineValid = false := rfl
@[simp] theorem Status.clearResults_tValid (x : Status) : (Status.clearResults x).tValid = false := rfl
@[simp] theorem Status.clearResults_hValid (x : Status) : (Status.clearResults x).hValid = false := rfl
@[simp] theorem Status.clearResults_pValid (x : Status) : (Status.clearResults x).pValid = false := rfl
@[simp] theorem Status.clearResults_configured (x : Status) : (Status.clearResults x).configured = x.configured := rfl
@[simp] theorem Status.clearResults_pDenZero (x : Status) : (Status.clearResults x).pDenZero = false := rfl
@[simp] theorem Status.clearResults_lastErr (x : Status) : (Status.clearResults x).lastErr = x.lastErr := rfl

@[simp] theorem Status.beginCycle_session (x : Status) : (Status.beginCycle x).session = x.session := rfl
@[simp] theorem Status.beginCycle_cycle (x : Status) : (Status.beginCycle x).cycle = .inFlight := rfl
@[simp] theorem Status.beginCycle_busy (x : Status) : (Status.beginCycle x).busy = x.busy := rfl
@[simp] theorem Status.beginCycle_rawValid (x : Status) : (Status.beginCycle x).rawValid = false := rfl
@[simp] theorem Status.beginCycle_tfineValid (x : Status) : (Status.beginCycle x).tfineValid = false := rfl
@[simp] theorem Status.beginCycle_tValid (x : Status) : (Status.beginCycle x).tValid = false := rfl
@[simp] theorem Status.beginCycle_hValid (x : Status) : (Status.beginCycle x).hValid = false := rfl
@[simp] theorem Status.beginCycle_pValid (x : Status) : (Status.beginCycle x).pValid = false := rfl
@[simp] theorem Status.beginCycle_configured (x : Status) : (Status.beginCycle x).configured = x.configured := rfl
@[simp] theorem Status.beginCycle_pDenZero (x : Status) : (Status.beginCycle x).pDenZero = false := rfl
@[simp] theorem Status.beginCycle_lastErr (x : Status) : (Status.beginCycle x).lastErr = x.lastErr := rfl

@[simp] theorem Status.abandonCycle_session (x : Status) : (Status.abandonCycle x).session = x.session := rfl
@[simp] theorem Status.abandonCycle_cycle (x : Status) : (Status.abandonCycle x).cycle = .idle := rfl
@[simp] theorem Status.abandonCycle_busy (x : Status) : (Status.abandonCycle x).busy = x.busy := rfl
@[simp] theorem Status.abandonCycle_rawValid (x : Status) : (Status.abandonCycle x).rawValid = x.rawValid := rfl
@[simp] theorem Status.abandonCycle_tfineValid (x : Status) : (Status.abandonCycle x).tfineValid = x.tfineValid := rfl
@[simp] theorem Status.abandonCycle_tValid (x : Status) : (Status.abandonCycle x).tValid = x.tValid := rfl
@[simp] theorem Status.abandonCycle_hValid (x : Status) : (Status.abandonCycle x).hValid = x.hValid := rfl
@[simp] theorem Status.abandonCycle_pValid (x : Status) : (Status.abandonCycle x).pValid = x.pValid := rfl
@[simp] theorem Status.abandonCycle_configured (x : Status) : (Status.abandonCycle x).configured = x.configured := rfl
@[simp] theorem Status.abandonCycle_pDenZero (x : Status) : (Status.abandonCycle x).pDenZero = x.pDenZero := rfl
@[simp] theorem Status.abandonCycle_lastErr (x : Status) : (Status.abandonCycle x).lastErr = x.lastErr := rfl

@[simp] theorem Status.loadCal_session (x : Status) : (Status.loadCal x).session = .calLoaded := rfl
@[simp] theorem Status.loadCal_cycle (x : Status) : (Status.loadCal x).cycle = .idle := rfl
@[simp] theorem Status.loadCal_busy (x : Status) : (Status.loadCal x).busy = x.busy := rfl
@[simp] theorem Status.loadCal_rawValid (x : Status) : (Status.loadCal x).rawValid = false := rfl
@[simp] theorem Status.loadCal_tfineValid (x : Status) : (Status.loadCal x).tfineValid = false := rfl
@[simp] theorem Status.loadCal_tValid (x : Status) : (Status.loadCal x).tValid = false := rfl
@[simp] theorem Status.loadCal_hValid (x : Status) : (Status.loadCal x).hValid = false := rfl
@[simp] theorem Status.loadCal_pValid (x : Status) : (Status.loadCal x).pValid = false := rfl
@[simp] theorem Status.loadCal_configured (x : Status) : (Status.loadCal x).configured = x.configured := rfl
@[simp] theorem Status.loadCal_pDenZero (x : Status) : (Status.loadCal x).pDenZero = false := rfl
@[simp] theorem Status.loadCal_lastErr (x : Status) : (Status.loadCal x).lastErr = x.lastErr := rfl


/-! ## EVENTS -/

@[simp] theorem Events.complete_done (c : Code) (x : Events) : (Events.complete c x).done = true := rfl
@[simp] theorem Events.complete_err (c : Code) (x : Events) : (Events.complete c x).err = (x.err || c != .ok) := rfl
@[simp] theorem Events.complete_overrun (c : Code) (x : Events) : (Events.complete c x).overrun = x.overrun := rfl

@[simp] theorem Events.setOverrun_done (x : Events) : (Events.setOverrun x).done = x.done := rfl
@[simp] theorem Events.setOverrun_err (x : Events) : (Events.setOverrun x).err = x.err := rfl
@[simp] theorem Events.setOverrun_overrun (x : Events) : (Events.setOverrun x).overrun = true := rfl


/-! ## The environment -/

@[simp] theorem Env.perform_port (e : PortEvent) (x : Env) : (Env.perform e x).port = x.port ++ [e] := rfl
@[simp] theorem Env.perform_reads (e : PortEvent) (x : Env) : (Env.perform e x).reads = x.reads := rfl
@[simp] theorem Env.perform_program (e : PortEvent) (x : Env) : (Env.perform e x).program = x.program := rfl
@[simp] theorem Env.perform_schedule (e : PortEvent) (x : Env) : (Env.perform e x).schedule = x.schedule := rfl
@[simp] theorem Env.perform_answers (e : PortEvent) (x : Env) : (Env.perform e x).answers = x.answers := rfl
@[simp] theorem Env.perform_sensor (e : PortEvent) (x : Env) : (Env.perform e x).sensor = x.sensor := rfl
@[simp] theorem Env.perform_draws (e : PortEvent) (x : Env) : (Env.perform e x).draws = x.draws := rfl

@[simp] theorem Env.select_port (x : Env) : (Env.select x).port = x.port ++ [.csAssert] := rfl
@[simp] theorem Env.select_reads (x : Env) : (Env.select x).reads = x.reads := rfl
@[simp] theorem Env.select_program (x : Env) : (Env.select x).program = x.program := rfl
@[simp] theorem Env.select_schedule (x : Env) : (Env.select x).schedule = x.schedule := rfl
@[simp] theorem Env.select_answers (x : Env) : (Env.select x).answers = x.answers := rfl
@[simp] theorem Env.select_sensor (x : Env) : (Env.select x).sensor = x.sensor.map Sensor.select := rfl
@[simp] theorem Env.select_draws (x : Env) : (Env.select x).draws = x.draws := rfl

@[simp] theorem Env.release_port (x : Env) : (Env.release x).port = x.port ++ [.csDeassert] := rfl
@[simp] theorem Env.release_reads (x : Env) : (Env.release x).reads = x.reads := rfl
@[simp] theorem Env.release_program (x : Env) : (Env.release x).program = x.program := rfl
@[simp] theorem Env.release_schedule (x : Env) : (Env.release x).schedule = x.schedule := rfl
@[simp] theorem Env.release_answers (x : Env) : (Env.release x).answers = x.answers := rfl
@[simp] theorem Env.release_sensor (x : Env) : (Env.release x).sensor = x.sensor.map Sensor.deselect := rfl
@[simp] theorem Env.release_draws (x : Env) : (Env.release x).draws = x.draws := rfl

@[simp] theorem Env.disturbSensor_port (x : Env) : (Env.disturbSensor x).port = x.port := rfl
@[simp] theorem Env.disturbSensor_reads (x : Env) : (Env.disturbSensor x).reads = x.reads := rfl
@[simp] theorem Env.disturbSensor_program (x : Env) : (Env.disturbSensor x).program = x.program := rfl
@[simp] theorem Env.disturbSensor_schedule (x : Env) : (Env.disturbSensor x).schedule = x.schedule := rfl
@[simp] theorem Env.disturbSensor_answers (x : Env) : (Env.disturbSensor x).answers = x.answers := rfl
@[simp] theorem Env.disturbSensor_sensor (x : Env) : (Env.disturbSensor x).sensor = x.sensor.map (Config.sensorAfterFault x.draws) := rfl
@[simp] theorem Env.disturbSensor_draws (x : Env) : (Env.disturbSensor x).draws = x.draws + 1 := rfl


/-! ## Operations on the state -/

@[simp] theorem accept_params (w : Word) (s : State) : (accept w s).params = s.params := rfl
@[simp] theorem accept_status (w : Word) (s : State) : (accept w s).status = s.status.accept := rfl
@[simp] theorem accept_events (w : Word) (s : State) : (accept w s).events = s.events := rfl
@[simp] theorem accept_regs (w : Word) (s : State) : (accept w s).regs = s.regs := rfl
@[simp] theorem accept_phase (w : Word) (s : State) : (accept w s).phase = .check := rfl
@[simp] theorem accept_curCmd (w : Word) (s : State) : (accept w s).curCmd = w := rfl
@[simp] theorem accept_script (w : Word) (s : State) : (accept w s).script = s.script := rfl
@[simp] theorem accept_ev (w : Word) (s : State) : (accept w s).ev = s.ev := rfl
@[simp] theorem accept_rx (w : Word) (s : State) : (accept w s).rx = s.rx := rfl
@[simp] theorem accept_cs (w : Word) (s : State) : (accept w s).cs = s.cs := rfl
@[simp] theorem accept_env (w : Word) (s : State) : (accept w s).env = s.env := rfl

@[simp] theorem complete_params (c : Code) (s : State) : (complete c s).params = s.params := rfl
@[simp] theorem complete_status (c : Code) (s : State) : (complete c s).status = s.status.complete c := rfl
@[simp] theorem complete_events (c : Code) (s : State) : (complete c s).events = s.events.complete c := rfl
@[simp] theorem complete_regs (c : Code) (s : State) : (complete c s).regs = s.regs := rfl
@[simp] theorem complete_phase (c : Code) (s : State) : (complete c s).phase = .idle := rfl
@[simp] theorem complete_curCmd (c : Code) (s : State) : (complete c s).curCmd = s.curCmd := rfl
@[simp] theorem complete_script (c : Code) (s : State) : (complete c s).script = [] := rfl
@[simp] theorem complete_ev (c : Code) (s : State) : (complete c s).ev = 0 := rfl
@[simp] theorem complete_rx (c : Code) (s : State) : (complete c s).rx = [] := rfl
@[simp] theorem complete_cs (c : Code) (s : State) : (complete c s).cs = s.cs := rfl
@[simp] theorem complete_env (c : Code) (s : State) : (complete c s).env = s.env := rfl

@[simp] theorem checkIllegal_params (s : State) : (checkIllegal s).params = s.params := rfl
@[simp] theorem checkIllegal_status (s : State) : (checkIllegal s).status = s.status.complete .illegalCmd := rfl
@[simp] theorem checkIllegal_events (s : State) : (checkIllegal s).events = s.events.complete .illegalCmd := rfl
@[simp] theorem checkIllegal_regs (s : State) : (checkIllegal s).regs = s.regs := rfl
@[simp] theorem checkIllegal_phase (s : State) : (checkIllegal s).phase = .idle := rfl
@[simp] theorem checkIllegal_curCmd (s : State) : (checkIllegal s).curCmd = s.curCmd := rfl
@[simp] theorem checkIllegal_script (s : State) : (checkIllegal s).script = [] := rfl
@[simp] theorem checkIllegal_ev (s : State) : (checkIllegal s).ev = 0 := rfl
@[simp] theorem checkIllegal_rx (s : State) : (checkIllegal s).rx = [] := rfl
@[simp] theorem checkIllegal_cs (s : State) : (checkIllegal s).cs = s.cs := rfl
@[simp] theorem checkIllegal_env (s : State) : (checkIllegal s).env = s.env := rfl

@[simp] theorem advance_params (s : State) : (advance s).params = s.params := rfl
@[simp] theorem advance_status (s : State) : (advance s).status = s.status := rfl
@[simp] theorem advance_events (s : State) : (advance s).events = s.events := rfl
@[simp] theorem advance_regs (s : State) : (advance s).regs = s.regs := rfl
@[simp] theorem advance_phase (s : State) : (advance s).phase = if s.ev + 1 = s.script.length then .commit else s.phase := rfl
@[simp] theorem advance_curCmd (s : State) : (advance s).curCmd = s.curCmd := rfl
@[simp] theorem advance_script (s : State) : (advance s).script = s.script := rfl
@[simp] theorem advance_ev (s : State) : (advance s).ev = s.ev + 1 := rfl
@[simp] theorem advance_rx (s : State) : (advance s).rx = s.rx := rfl
@[simp] theorem advance_cs (s : State) : (advance s).cs = s.cs := rfl
@[simp] theorem advance_env (s : State) : (advance s).env = s.env := rfl

@[simp] theorem hostRead_params (off : BitVec 8) (s : State) : (hostRead off s).params = s.params := rfl
@[simp] theorem hostRead_status (off : BitVec 8) (s : State) : (hostRead off s).status = s.status := rfl
@[simp] theorem hostRead_events (off : BitVec 8) (s : State) : (hostRead off s).events = s.events := rfl
@[simp] theorem hostRead_regs (off : BitVec 8) (s : State) : (hostRead off s).regs = s.regs := rfl
@[simp] theorem hostRead_phase (off : BitVec 8) (s : State) : (hostRead off s).phase = s.phase := rfl
@[simp] theorem hostRead_curCmd (off : BitVec 8) (s : State) : (hostRead off s).curCmd = s.curCmd := rfl
@[simp] theorem hostRead_script (off : BitVec 8) (s : State) : (hostRead off s).script = s.script := rfl
@[simp] theorem hostRead_ev (off : BitVec 8) (s : State) : (hostRead off s).ev = s.ev := rfl
@[simp] theorem hostRead_rx (off : BitVec 8) (s : State) : (hostRead off s).rx = s.rx := rfl
@[simp] theorem hostRead_cs (off : BitVec 8) (s : State) : (hostRead off s).cs = s.cs := rfl

@[simp] theorem popProgram_params (s : State) : (popProgram s).params = s.params := rfl
@[simp] theorem popProgram_status (s : State) : (popProgram s).status = s.status := rfl
@[simp] theorem popProgram_events (s : State) : (popProgram s).events = s.events := rfl
@[simp] theorem popProgram_regs (s : State) : (popProgram s).regs = s.regs := rfl
@[simp] theorem popProgram_phase (s : State) : (popProgram s).phase = s.phase := rfl
@[simp] theorem popProgram_curCmd (s : State) : (popProgram s).curCmd = s.curCmd := rfl
@[simp] theorem popProgram_script (s : State) : (popProgram s).script = s.script := rfl
@[simp] theorem popProgram_ev (s : State) : (popProgram s).ev = s.ev := rfl
@[simp] theorem popProgram_rx (s : State) : (popProgram s).rx = s.rx := rfl
@[simp] theorem popProgram_cs (s : State) : (popProgram s).cs = s.cs := rfl

@[simp] theorem sensorConverted_params (p t : BitVec 20) (h : BitVec 16) (s : State) : (sensorConverted p t h s).params = s.params := rfl
@[simp] theorem sensorConverted_status (p t : BitVec 20) (h : BitVec 16) (s : State) : (sensorConverted p t h s).status = s.status := rfl
@[simp] theorem sensorConverted_events (p t : BitVec 20) (h : BitVec 16) (s : State) : (sensorConverted p t h s).events = s.events := rfl
@[simp] theorem sensorConverted_regs (p t : BitVec 20) (h : BitVec 16) (s : State) : (sensorConverted p t h s).regs = s.regs := rfl
@[simp] theorem sensorConverted_phase (p t : BitVec 20) (h : BitVec 16) (s : State) : (sensorConverted p t h s).phase = s.phase := rfl
@[simp] theorem sensorConverted_curCmd (p t : BitVec 20) (h : BitVec 16) (s : State) : (sensorConverted p t h s).curCmd = s.curCmd := rfl
@[simp] theorem sensorConverted_script (p t : BitVec 20) (h : BitVec 16) (s : State) : (sensorConverted p t h s).script = s.script := rfl
@[simp] theorem sensorConverted_ev (p t : BitVec 20) (h : BitVec 16) (s : State) : (sensorConverted p t h s).ev = s.ev := rfl
@[simp] theorem sensorConverted_rx (p t : BitVec 20) (h : BitVec 16) (s : State) : (sensorConverted p t h s).rx = s.rx := rfl
@[simp] theorem sensorConverted_cs (p t : BitVec 20) (h : BitVec 16) (s : State) : (sensorConverted p t h s).cs = s.cs := rfl

@[simp] theorem platformReset_params (s : State) : (platformReset s).params = s.params := rfl
@[simp] theorem platformReset_status (s : State) : (platformReset s).status = Status.reset := rfl
@[simp] theorem platformReset_events (s : State) : (platformReset s).events = Events.reset := rfl
@[simp] theorem platformReset_regs (s : State) : (platformReset s).regs = Regs.reset := rfl
@[simp] theorem platformReset_phase (s : State) : (platformReset s).phase = .idle := rfl
@[simp] theorem platformReset_curCmd (s : State) : (platformReset s).curCmd = 0 := rfl
@[simp] theorem platformReset_script (s : State) : (platformReset s).script = [] := rfl
@[simp] theorem platformReset_ev (s : State) : (platformReset s).ev = 0 := rfl
@[simp] theorem platformReset_rx (s : State) : (platformReset s).rx = [] := rfl
@[simp] theorem platformReset_cs (s : State) : (platformReset s).cs = false := rfl
@[simp] theorem platformReset_env (s : State) : (platformReset s).env = if s.cs then s.env.release else s.env := rfl

end Sys2Proof.Machine
end

