-- ==== Sys2Proof/Laws/Ops.lean ====
section
/-! SUPPORT. What each shared operation can do, said once: the lemmas later proofs cite instead of unfolding it. -/

namespace Sys2Proof.Machine

/-! ## STATUS -/

/-- `UpdateCycle()` writes CYCLE alone. -/
theorem updateCycle_eq (v : Variant) (x : Status) :
    x.updateCycle v = { x with cycle := if x.allValid v then .resultReady else x.cycle } := by
  unfold Status.updateCycle
  split <;> rfl

theorem allValid_iff (v : Variant) (x : Status) :
    x.allValid v = true ↔ x.tValid = true ∧ x.hValid = true ∧ (x.pValid = true ∨ v = .th) := by
  simp [Status.allValid, and_assoc]

/-! ## Acceptance and abort -/

theorem offer_busy {s : State} (w : Word) (h : s.status.busy = true) :
    offer w s = { s with events := s.events.setOverrun } := by simp [offer, h]

theorem offer_free {s : State} (w : Word) (h : s.status.busy = false) : offer w s = accept w s := by simp [offer, h]

/-- Everything an offer leaves alone. -/
theorem offer_frame (w : Word) (s : State) :
    (offer w s).regs = s.regs ∧ (offer w s).params = s.params ∧ (offer w s).env = s.env ∧ (offer w s).script = s.script ∧
      (offer w s).ev = s.ev ∧ (offer w s).rx = s.rx ∧ (offer w s).cs = s.cs := by
  cases h : s.status.busy <;> simp [offer_busy, offer_free, h]

@[simp] theorem closeFrame_regs (s : State) : (closeFrame s).regs = s.regs := by unfold closeFrame; split <;> rfl
@[simp] theorem closeFrame_status (s : State) : (closeFrame s).status = s.status := by unfold closeFrame; split <;> rfl
@[simp] theorem closeFrame_events (s : State) : (closeFrame s).events = s.events := by unfold closeFrame; split <;> rfl
@[simp] theorem closeFrame_params (s : State) : (closeFrame s).params = s.params := by unfold closeFrame; split <;> rfl
@[simp] theorem closeFrame_curCmd (s : State) : (closeFrame s).curCmd = s.curCmd := by unfold closeFrame; split <;> rfl
@[simp] theorem closeFrame_cs (s : State) : (closeFrame s).cs = false := by
  unfold closeFrame; split <;> simp_all
theorem closeFrame_env (s : State) : (closeFrame s).env = if s.cs then s.env.release else s.env := by
  unfold closeFrame; split <;> rfl

/-- An abort, field by field. -/
theorem abort_eq (action : Status → Status) (c : Code) (s : State) :
    abort action c s =
      { s with
        status := (action s.status).complete c
        events := s.events.complete c
        phase := .idle
        script := []
        ev := 0
        rx := []
        cs := false
        env := if s.cs then s.env.disturbSensor.release else s.env.disturbSensor } := by
  cases h : s.cs <;> simp [abort, closeFrame, complete, h]

/-! ## The transport -/

/-- A transfer leaves what the host holds and what the port has shown. -/
theorem transfer_frame (out : Byte) (x : Env) :
    (x.transfer out).2.port = x.port ∧ (x.transfer out).2.reads = x.reads ∧ (x.transfer out).2.program = x.program ∧
      (x.transfer out).2.schedule = x.schedule := by
  unfold Env.transfer Env.clockSensor
  split <;> simp

theorem transfer_placed {x : Env} {a : Answer} {rest : List Answer} (out : Byte) (h : x.answers = a :: rest)
    (hs : x.sensor = none) : x.transfer out = (a, { x with answers := rest }) := by
  unfold Env.transfer
  rw [h, hs]
  cases a <;> rfl

theorem transfer_noByte {x : Env} {a : Answer} {rest : List Answer} (out : Byte) (h : x.answers = a :: rest)
    (ha : ∀ i, a ≠ .byte i) : x.transfer out = (a, { x with answers := rest }) := by
  unfold Env.transfer
  rw [h]
  cases a with
  | byte i => exact absurd rfl (ha i)
  | fault => rfl
  | noAnswer => rfl

theorem transfer_sensor {x : Env} {sn : Sensor} (out : Byte) (h : x.answers = []) (hs : x.sensor = some sn) :
    x.transfer out = (.byte (sn.transfer (Config.freeByte x.draws) out).1,
      { x with sensor := some (sn.transfer (Config.freeByte x.draws) out).2, draws := x.draws + 1 }) := by
  simp only [Env.transfer, Env.clockSensor, h, hs]

/-! ## The concrete sensor -/

/-- A ctrl_meas write with a forced mode adds one conversion, and with any other mode none. -/
theorem writeCtrlMeas_eq (v : Byte) (sn : Sensor) :
    sn.writeCtrlMeas v =
      { sn with
        ctrlMeas := v
        osrsH := sn.ctrlHum
        measuring := if forcedMode v then sn.measuring ++ [conversionOf v sn.ctrlHum] else sn.measuring } := by
  cases h : forcedMode v <;> simp [Sensor.writeCtrlMeas, Sensor.trigger, h]

theorem converted_none {sn : Sensor} (p t : BitVec 20) (h : BitVec 16) (hm : sn.measuring = []) : sn.converted p t h = sn := by
  simp only [Sensor.converted, hm]

/-- The end of a conversion takes the first one away and leaves the frame and the control registers but the mode. -/
theorem converted_frame (p t : BitVec 20) (h : BitVec 16) (sn : Sensor) :
    (sn.converted p t h).measuring = sn.measuring.tail ∧ (sn.converted p t h).frame = sn.frame ∧
      (sn.converted p t h).ctrlHum = sn.ctrlHum ∧ (sn.converted p t h).osrsH = sn.osrsH ∧
      (sn.converted p t h).config = sn.config ∧ (sn.converted p t h).calib = sn.calib ∧
      (sn.converted p t h).calibTail = sn.calibTail := by
  unfold Sensor.converted
  split <;> simp_all

/-! ## The sequencer's steps -/

/-- The check step, by its code. -/
theorem checkStep_refused {s : State} {i : Instr} (begin : Status → Status) (h : checkCode s.params i s.status ≠ .ok) :
    checkStep i begin s = complete (checkCode s.params i s.status) s := by
  unfold checkStep
  split <;> simp_all

theorem checkStep_passed {s : State} {i : Instr} (begin : Status → Status) (h : checkCode s.params i s.status = .ok) :
    checkStep i begin s =
      { s with
        status := begin s.status
        script := scriptOf s.params i
        ev := 0
        rx := []
        phase := if scriptOf s.params i = [] then .commit else .run } := by
  unfold checkStep
  rw [h]

/-- What a transfer step can do: receive a byte, abort, or wait. -/
theorem transferStep_cases (action : Status → Status) (out : Byte) (s : State) :
    (∃ i env, (s.env.transfer out) = (.byte i, env) ∧
      transferStep action out s = advance { s with rx := s.rx ++ [i], env := env.perform (.xfer out) }) ∨
    (∃ env, (s.env.transfer out).2 = env ∧
      transferStep action out s = abort action .transport { s with env := env.perform (.xfer out) }) ∨
    (∃ env, (s.env.transfer out) = (.noAnswer, env) ∧ s.params.xferTimeoutEn = false ∧
      transferStep action out s = { s with env := env }) := by
  rcases h : s.env.transfer out with ⟨a, env⟩
  cases a with
  | byte i => exact .inl ⟨i, env, rfl, by simp [transferStep, h]⟩
  | fault => exact .inr (.inl ⟨env, rfl, by simp [transferStep, h]⟩)
  | noAnswer =>
    cases ht : s.params.xferTimeoutEn with
    | true => exact .inr (.inl ⟨env, rfl, by simp [transferStep, h, ht]⟩)
    | false => exact .inr (.inr ⟨env, rfl, rfl, by simp [transferStep, h, ht]⟩)

/-- What a run step can do where EV is an index of SCRIPT. -/
theorem runStep_cases {s : State} {e : PortEvent} (action : Status → Status) (h : s.script[s.ev]? = some e) :
    (e = .csAssert ∧ runStep action s = .next (advance { s with cs := true, env := s.env.select })) ∨
    (e = .csDeassert ∧ runStep action s = .next (advance { s with cs := false, env := s.env.release })) ∨
    (∃ out, e = .xfer out ∧ runStep action s = .next (transferStep action out s)) := by
  unfold runStep
  rw [h]
  cases e <;> simp

/-- `exec` is the lifecycle of its instruction: one lemma a phase. -/
theorem lifecycle_idle {s : State} (i : Instr) (b a : Status → Status) (c : State → Result) (h : s.phase = .idle) :
    lifecycle i b a c s = .next (offer (encode i) s) := by simp [lifecycle, h]

theorem lifecycle_check {s : State} (i : Instr) (b a : Status → Status) (c : State → Result) (h : s.phase = .check) :
    lifecycle i b a c s = .next (checkStep i b s) := by simp [lifecycle, h]

theorem lifecycle_run {s : State} (i : Instr) (b a : Status → Status) (c : State → Result) (h : s.phase = .run) :
    lifecycle i b a c s = runStep a s := by simp [lifecycle, h]

theorem lifecycle_commit {s : State} (i : Instr) (b a : Status → Status) (c : State → Result) (h : s.phase = .commit) :
    lifecycle i b a c s = c s := by simp [lifecycle, h]

end Sys2Proof.Machine
end

