-- ==== Sys2Proof/Laws/Exec.lean ====
section
/-! SUPPORT. `exec` phase by phase, for all commands at once, and the turns of the machine. -/

namespace Sys2Proof.Machine

/-- The begin action of each command (spec/40_register_protocol.md R143). -/
def beginOf (i : Instr) : Status → Status := if beginsCycle i then Status.beginCycle else id

/-- The abort action of each command (R146, R176). -/
def abortOf (i : Instr) : Status → Status := if beginsCycle i then Status.abandonCycle else id

/-- The commit of each command (R145). -/
def commitOf (i : Instr) : State → Result :=
  match i with
  | .identify => commitIdentify
  | .configure _ _ => commitConfigure
  | .loadCal => commitLoadCal
  | .measure _ _ => commitMeasure
  | .compT => commitCompT
  | .compH => commitCompH
  | .compP => commitCompP
  | .cycle _ _ => commitCycle

theorem exec_eq (i : Instr) (s : State) : exec i s = lifecycle i (beginOf i) (abortOf i) (commitOf i) s := by
  cases i <;> rfl

theorem exec_idle {s : State} (i : Instr) (h : s.phase = .idle) : exec i s = .next (offer (encode i) s) := by
  rw [exec_eq, lifecycle_idle _ _ _ _ h]

theorem exec_check {s : State} (i : Instr) (h : s.phase = .check) : exec i s = .next (checkStep i (beginOf i) s) := by
  rw [exec_eq, lifecycle_check _ _ _ _ h]

theorem exec_run {s : State} (i : Instr) (h : s.phase = .run) : exec i s = runStep (abortOf i) s := by
  rw [exec_eq, lifecycle_run _ _ _ _ h]

theorem exec_commit {s : State} (i : Instr) (h : s.phase = .commit) : exec i s = commitOf i s := by
  rw [exec_eq, lifecycle_commit _ _ _ _ h]

/-- What a commit step can do: complete its command, or find a byte count that its script does not give. -/
theorem commit_cases (i : Instr) (s : State) :
    (∃ c t, commitOf i s = .next (complete c t) ∧ t.params = s.params ∧ t.events = s.events ∧ t.curCmd = s.curCmd ∧
      t.cs = s.cs ∧ t.env = s.env ∧ (c = .ok ∨ (c = .deviceAbsent ∧ i = .identify))) ∨
    commitOf i s = .fault .bytesMissing := by
  cases i with
  | identify =>
    simp only [commitOf, commitIdentify]
    split
    · split
      · exact .inl ⟨.ok, _, rfl, rfl, rfl, rfl, rfl, rfl, .inl rfl⟩
      · exact .inl ⟨.deviceAbsent, _, rfl, rfl, rfl, rfl, rfl, rfl, .inr ⟨rfl, trivial⟩⟩
    · exact .inr rfl
  | configure h m => exact .inl ⟨.ok, _, rfl, rfl, rfl, rfl, rfl, rfl, .inl rfl⟩
  | loadCal =>
    simp only [commitOf, commitLoadCal]
    split
    · exact .inl ⟨.ok, _, rfl, rfl, rfl, rfl, rfl, rfl, .inl rfl⟩
    · exact .inr rfl
  | measure h m =>
    simp only [commitOf, commitMeasure]
    split
    · exact .inl ⟨.ok, _, rfl, rfl, rfl, rfl, rfl, rfl, .inl rfl⟩
    · exact .inr rfl
  | compT => exact .inl ⟨.ok, _, rfl, rfl, rfl, rfl, rfl, rfl, .inl rfl⟩
  | compH => exact .inl ⟨.ok, _, rfl, rfl, rfl, rfl, rfl, rfl, .inl rfl⟩
  | compP => exact .inl ⟨.ok, _, rfl, rfl, rfl, rfl, rfl, rfl, .inl rfl⟩
  | cycle h m =>
    simp only [commitOf, commitCycle]
    split
    · exact .inl ⟨.ok, _, rfl, rfl, rfl, rfl, rfl, rfl, .inl rfl⟩
    · exact .inr rfl

/-! ## Turns -/

theorem nextTurn_placed {x : Env} {t : Turn} {turns : List Turn} (h : x.schedule = t :: turns) :
    nextTurn x = (t, { x with schedule := turns }) := by unfold nextTurn; rw [h]

theorem step_placed {s : State} {t : Turn} {turns : List Turn} (h : s.env.schedule = t :: turns) :
    step s = takeTurn t { s with env := { s.env with schedule := turns } } := by
  simp only [step, machineStep, nextTurn_placed h]

theorem sequencerStep_decoded {s : State} {i : Instr} (hp : s.phase ≠ .idle) (h : decode s.params.variant s.curCmd = .ok i) :
    sequencerStep s = exec i s := by
  unfold sequencerStep
  rw [if_neg hp, h]

theorem hostStep_read {s : State} {off : BitVec 8} {ops : List HostOp} (h : s.env.program = .read off :: ops)
    (ha : aligned off = true) : hostStep s = .next (popProgram (hostRead off s)) := by
  unfold hostStep
  rw [h]
  simp only [ha, if_true]

theorem hostStep_write {s : State} {off : BitVec 8} {v : Word} {ops : List HostOp}
    (h : s.env.program = .write off v :: ops) (ha : aligned off = true) :
    hostStep s = .next (popProgram (hostWrite off v s)) := by
  unfold hostStep
  rw [h]
  simp only [ha, if_true]

/-- The host's turn with a read at the head of its program. -/
theorem step_read {s : State} {off : BitVec 8} {ops : List HostOp} {turns : List Turn} (hs : s.env.schedule = .host :: turns)
    (hp : s.env.program = .read off :: ops) (ha : aligned off = true) :
    step s = .next (popProgram (hostRead off { s with env := { s.env with schedule := turns } })) := by
  rw [step_placed hs]
  exact hostStep_read (ops := ops) hp ha

/-- The host's turn with a write at the head of its program. -/
theorem step_write {s : State} {off : BitVec 8} {v : Word} {ops : List HostOp} {turns : List Turn}
    (hs : s.env.schedule = .host :: turns) (hp : s.env.program = .write off v :: ops) (ha : aligned off = true) :
    step s = .next (popProgram (hostWrite off v { s with env := { s.env with schedule := turns } })) := by
  rw [step_placed hs]
  exact hostStep_write (ops := ops) hp ha

/-- What a host write can do: offer a command, clear events, or nothing. -/
theorem hostWrite_cases (off : BitVec 8) (v : Word) (s : State) :
    (regAt off = some .cmd ∧ hostWrite off v s = offer v s) ∨
    (regAt off = some .events ∧ hostWrite off v s = { s with events := s.events.clear v }) ∨
    (regAt off ≠ some .cmd ∧ regAt off ≠ some .events ∧ hostWrite off v s = s) := by
  unfold hostWrite
  split <;> simp_all

theorem aligned_iff (off : BitVec 8) : aligned off = true ↔ off.toNat % 4 = 0 := by
  revert off
  decide

end Sys2Proof.Machine
end

