-- ==== Sys2Proof/Laws/PerInstr.lean ====
section
/-! SUPPORT. A statement about every instruction, made one constructor at a time: the word of an instruction carries its OP
and leaves the reserved bits 0 (spec/30_encoding.md R100, R101), whatever its operands are. -/

namespace Sys2Proof.Laws.EncodedFields

/-- The word of `i` has OP in bits 3:0, and bit 7 and bits 31:10 are 0. -/
def Statement (i : Instr) : Prop := opField (encode i) = opcode i ∧ reservedFields (encode i) = 0

theorem commandWord_fields (op : BitVec 4) (h : BitVec 3) (m : BitVec 2) :
    opField (commandWord op h m) = op ∧ reservedFields (commandWord op h m) = 0 := by
  revert op h m
  decide

theorem identify : Statement .identify := commandWord_fields _ _ _
theorem configure (h : BitVec 3) (m : MeasSel) : Statement (.configure h m) := commandWord_fields _ _ _
theorem loadCal : Statement .loadCal := commandWord_fields _ _ _
theorem measure (h : BitVec 3) (m : MeasSel) : Statement (.measure h m) := commandWord_fields _ _ _
theorem compT : Statement .compT := commandWord_fields _ _ _
theorem compH : Statement .compH := commandWord_fields _ _ _
theorem compP : Statement .compP := commandWord_fields _ _ _
theorem cycle (h : BitVec 3) (m : MeasSel) : Statement (.cycle h m) := commandWord_fields _ _ _

end Sys2Proof.Laws.EncodedFields
end

