-- ==== Sys2Proof/Laws/Words.lean ====
section
/-! SUPPORT. The bits of EVENTS and of STATUS as words (spec/10_state.md R33, R41), the register map at its rows, and the host
CPU's addresses, so that no proof takes them apart again. -/

namespace Sys2Proof.Machine

theorem Events.word_bit (e : Events) (i : Nat) :
    e.word.getLsbD i = if i = 0 then e.done else if i = 1 then e.err else if i = 2 then e.overrun else false := by
  rcases e with ⟨done, err, overrun⟩
  unfold Events.word
  rcases i with _ | _ | _ | i <;> (repeat erw [BitVec.getLsbD_append]) <;> simp

/-- BUSY is bit 4 of STATUS. -/
theorem Status.word_busy (x : Status) : x.word.getLsbD 4 = x.busy := by
  unfold Status.word
  erw [BitVec.getLsbD_append, BitVec.getLsbD_append, BitVec.getLsbD_append]
  simp

/-- Each register of the map stands at its offset. -/
theorem regAt_cmd : regAt 0x04 = some .cmd := by decide
theorem regAt_status : regAt 0x08 = some .status := by decide
theorem regAt_events : regAt 0x0C = some .events := by decide

/-- Every offset is unmapped or a row of the map. -/
theorem regAt_row : ∀ off : BitVec 8, regAt off = none ∨ (off, (regAt off).getD .caps) ∈ registerMap := by decide

theorem regAt_writable : ∀ off : BitVec 8, off ≠ 0x04 → off ≠ 0x0C → regAt off ≠ some .cmd ∧ regAt off ≠ some .events := by
  decide

/-- What a read returns does not depend on what stands outside the engine. -/
theorem readOffset_env (s : State) (e : Env) (off : BitVec 8) : readOffset { s with env := e } off = readOffset s off := by
  unfold readOffset
  cases regAt off with
  | none => rfl
  | some r => cases r <;> rfl

/-- The host CPU's address of an offset names that offset (spec/20_memory.md R87). -/
theorem offsetOfCpu_cpuAddress (off : BitVec 8) : offsetOfCpu (cpuAddress off) = some off := by
  have := off.isLt
  unfold offsetOfCpu cpuAddress spaceBytes
  rw [if_pos ⟨Nat.le_add_right _ _, by omega⟩, Nat.add_sub_cancel_left, BitVec.ofNat_toNat, BitVec.setWidth_eq]

end Sys2Proof.Machine
end

