-- ==== Sys2Proof/Tests/Slice0.lean ====
section
/-! SUPPORT. The model's own tests. Expected values are those of spec/95_test_vectors.md, whose vector each test names, or
are read off the rule a test names. The witnesses at the end show, for every statement with hypotheses, a state and operands
that meet them. -/

namespace Sys2Proof.Tests

open Sys2Proof Sys2Proof.Machine

/-! ## Well-formedness: one ill-formed term for each check -/

theorem test_configure_th_pressure : (Instr.configure 1 .tempPress).wellFormed .th = false := by decide
theorem test_measure_th_pressure : (Instr.measure 1 .tempPress).wellFormed .th = false := by decide
theorem test_cycle_th_pressure : (Instr.cycle 7 .tempPress).wellFormed .th = false := by decide
theorem test_compP_th : Instr.compP.wellFormed .th = false := by decide
theorem test_configure_thp_pressure : (Instr.configure 1 .tempPress).wellFormed .thp = true := by decide

/-! ## Decoding: words written out from spec/30_encoding.md R100, vectors ENC-1 to ENC-20 -/

theorem test_decode_identify : decode .thp 0b00000000000000000000000000000001#32 = .ok .identify := by decide
theorem test_decode_configure : decode .thp 0b00000000000000000000001000010010#32 = .ok (.configure 1 .tempPress) := by decide
theorem test_decode_loadCal : decode .thp 0b00000000000000000000000000000011#32 = .ok .loadCal := by decide
theorem test_decode_measure : decode .thp 0b00000000000000000000001000010100#32 = .ok (.measure 1 .tempPress) := by decide
theorem test_decode_compT : decode .thp 0b00000000000000000000000000000101#32 = .ok .compT := by decide
theorem test_decode_compH : decode .thp 0b00000000000000000000000000000110#32 = .ok .compH := by decide
theorem test_decode_compP : decode .thp 0b00000000000000000000000000000111#32 = .ok .compP := by decide
theorem test_decode_cycle : decode .thp 0b00000000000000000000001001111000#32 = .ok (.cycle 7 .tempPress) := by decide
/-- ENC-3, ENC-10: the selectors 0x22 and 0x21. -/
theorem test_decode_selectors : decode .th 0x112#32 = .ok (.configure 1 .tempHum) ∧ decode .th 0x18#32 = .ok (.cycle 1 .temp) := by
  decide
/-- ENC-2, ENC-5, ENC-7, ENC-8: what TH refuses. -/
theorem test_decode_th : decode .th 0x212#32 = .error .pressureSelector ∧ decode .th 0x214#32 = .error .pressureSelector ∧
    decode .th 0x07#32 = .error .pressureCommand ∧ decode .th 0x218#32 = .error .pressureSelector := by decide
/-- ENC-11, ENC-12: item 1. -/
theorem test_decode_opcode : decode .thp 0x0#32 = .error .reservedOpcode ∧ decode .thp 0x9#32 = .error .reservedOpcode ∧
    decode .thp 0xF#32 = .error .reservedOpcode := by decide
/-- ENC-13 to ENC-16, ENC-20: item 2. -/
theorem test_decode_reserved : decode .thp 0x84#32 = .error .reservedBits ∧ decode .thp 0x408#32 = .error .reservedBits ∧
    decode .thp 0x80000002#32 = .error .reservedBits ∧ decode .thp 0xFFFFFFFF#32 = .error .reservedBits ∧
    decode .thp 0x1F4#32 = .error .reservedBits := by decide
/-- ENC-17, ENC-18, ENC-19: items 4 and 3. -/
theorem test_decode_operands : decode .thp 0x314#32 = .error .reservedSelector ∧ decode .thp 0x11#32 = .error .operandBits ∧
    decode .thp 0x15#32 = .error .operandBits ∧ decode .thp 0x105#32 = .error .operandBits := by decide
theorem test_tableWord : decodeTableWord 32 0x218 = some (.cycle 1 .tempPress) ∧ decodeTableWord 32 0x9 = none := by decide

/-! ## States the tests start from -/

/-- A session that has its calibration, with nothing measured. -/
def loaded : State := { State.reset with status := { Status.reset with session := .calLoaded } }

/-- The sequencer at the check step of `i`. -/
def atCheck (i : Instr) (s : State) : State :=
  { s with status := { s.status with busy := true }, phase := .check, curCmd := encode i }

/-- The sequencer before event `n` of the script of `i`, with answers placed. -/
def atRun (i : Instr) (n : Nat) (answers : List Answer) (s : State) : State :=
  { s with
    status := { s.status with busy := true }
    phase := .run
    curCmd := encode i
    script := scriptOf s.params i
    ev := n
    rx := List.replicate (transfersIn ((scriptOf s.params i).take n)) 0
    cs := csAfter ((scriptOf s.params i).take n)
    env := { s.env with answers := answers } }

/-- The sequencer at the commit step of `i`, with the bytes received. -/
def atCommit (i : Instr) (rx : List Byte) (s : State) : State :=
  { s with
    status := { s.status with busy := true }
    phase := .commit
    curCmd := encode i
    script := scriptOf s.params i
    ev := (scriptOf s.params i).length
    rx := rx }

/-- `s` with turns placed. -/
def turns (l : List Turn) (s : State) : State := { s with env := { s.env with schedule := l } }

/-- `s` with the host's accesses placed. -/
def host (l : List HostOp) (s : State) : State := { s with env := { s.env with program := l } }

/-- The state a step reached, if it reached one. -/
def reached (r : Result) : Option State :=
  match r with
  | .next s => some s
  | .fault _ => none
  | .refused _ => none

/-- What a register reads as in the state a step reached. -/
def reads (r : Result) (off : BitVec 8) : Option Word := (reached r).map (readOffset · off)

/-- The calibration bytes of vector CAL-1. -/
def cal1 : List Byte :=
  [0x70, 0x6B, 0x43, 0x67, 0x18, 0xFC, 0x7D, 0x8E, 0x43, 0xD6, 0xD0, 0x0B, 0x27] ++
  [0x0B, 0x8C, 0x00, 0xF9, 0xFF, 0x8C, 0x3C, 0xF8, 0xC6, 0x70, 0x17, 0x00, 0x4B]
def tail1 : List Byte := [0x6A, 0x01, 0x00, 0x13, 0x29, 0x03, 0x1E]

/-- The data bytes of vector MEAS-1. -/
def meas1 : List Byte := [0x65, 0x5A, 0xC0, 0x7E, 0xED, 0x00, 0x75, 0x30]

/-- A session with the coefficients of CAL-1. -/
def withCal1 : State := { loaded with regs := { Regs.reset with dig := decodeCalibration {} cal1 tail1 } }

/-- A build for temperature and humidity, without the rewrite of ctrl_hum. -/
def thBuild : Params := { variant := .th, rewriteHum := false }

/-! ## One step of each command -/

/-- PR-1: received bytes `FF 60`. -/
theorem test_identify_match :
    reads (exec .identify (atCommit .identify [0xFF, 0x60] State.reset)) 0x10 = some 0x60 ∧
    reads (exec .identify (atCommit .identify [0xFF, 0x60] State.reset)) 0x08 = some 0x1 := by decide
/-- PR-2, P2: a `60` in the throwaway position does not count. -/
theorem test_identify_mismatch :
    reads (exec .identify (atCommit .identify [0x60, 0x00] State.reset)) 0x08 = some 0x7003 ∧
    reads (exec .identify (atCommit .identify [0x60, 0x00] State.reset)) 0x0C = some 0x3 := by decide

/-- FR-3: the bytes CONFIGURE sends. -/
theorem test_configure_script : scriptOf {} (.configure 5 .tempHum) =
    [.csAssert, .xfer 0x72, .xfer 0x05, .xfer 0x74, .xfer 0x22, .xfer 0x75, .xfer 0x00, .csDeassert] := by decide
/-- PR-7: the fourth transfer of CONFIGURE fails; STATUS reads TRANSPORT, and the frame is closed. -/
theorem test_configure_fault :
    reads (exec (.configure 1 .tempPress) (atRun (.configure 1 .tempPress) 4 [.fault] loaded)) 0x08 = some 0x6002 ∧
    (reached (exec (.configure 1 .tempPress) (atRun (.configure 1 .tempPress) 4 [.fault] loaded))).map (·.env.port) =
      some [.xfer 0x25, .csDeassert] := by decide

/-- CAL-1: DIG_T3 and DIG_H4 after LOAD_CAL's commit. -/
theorem test_loadCal :
    reads (exec .loadCal (atCommit .loadCal (0xFF :: (cal1 ++ 0xFF :: tail1)) loaded)) 0x48 = some 0xFFFFFC18 ∧
    reads (exec .loadCal (atCommit .loadCal (0xFF :: (cal1 ++ 0xFF :: tail1)) loaded)) 0x7C = some 0x139 ∧
    reads (exec .loadCal (atCommit .loadCal (0xFF :: (cal1 ++ 0xFF :: tail1)) loaded)) 0xB0 = some 0x001E0329 := by decide
/-- CAL-2, CAL-4: both readings of the nibble fields, and which nibble is whose. -/
theorem test_loadCal_nibbles :
    (decodeCalibration {} (List.replicate 26 0xFF) (List.replicate 7 0xFF)).h4 = 0x0FFF ∧
    (decodeCalibration { h45Signed := true } (List.replicate 26 0xFF) (List.replicate 7 0xFF)).h5 = 0xFFFF ∧
    (decodeCalibration {} cal1 (tail1.set 4 0xAB)).h4 = 315 ∧ (decodeCalibration {} cal1 (tail1.set 4 0xAB)).h5 = 58 := by
  decide

/-- MEAS-4, PR-5: where the data bytes stand and which nibble is dropped. -/
theorem test_measure :
    let s := atCommit (.measure 1 .temp)
      (List.replicate 7 0 ++ [0x12, 0x34, 0x5F, 0xAB, 0xCD, 0xEF, 0x12, 0x34]) loaded
    reads (exec (.measure 1 .temp) s) 0x14 = some 703710 ∧ reads (exec (.measure 1 .temp) s) 0x18 = some 74565 ∧
    reads (exec (.measure 1 .temp) s) 0xB4 = some 0xAB5F3412 := by decide
/-- FR-6: the script without the rewrite of ctrl_hum. -/
theorem test_measure_script : scriptOf thBuild (.measure 1 .tempHum) =
    [.csAssert, .xfer 0x74, .xfer 0x22, .xfer 0x75, .xfer 0x00, .csDeassert, .csAssert, .xfer 0xF7] ++
      List.replicate 8 (.xfer 0x00) ++ [.csDeassert] := by decide

/-- T-1 and T-2. -/
theorem test_compT : compTemp 519888 27504 26435 (BitVec.ofInt 32 (-1000)) = (2508, 128422) ∧
    compTemp 0 27504 26435 (BitVec.ofInt 32 (-1000)) = (BitVec.ofInt 32 (-14088), BitVec.ofInt 32 (-721301)) := by decide
/-- CHK-2: COMP_T in ID_CONFIRMED. -/
theorem test_compT_check :
    let s := atCheck .compT { State.reset with status := { Status.reset with session := .idConfirmed } }
    reads (exec .compT s) 0x08 = some 0x3001 ∧ reads (exec .compT s) 0x0C = some 0x3 := by decide

/-- H-1, H-2, H-3: in range, and clamped at both ends. -/
theorem test_compH : compHum 30000 128422 75 362 0 313 50 30 = (56317, 54997) ∧
    compHum 0 128422 75 362 0 313 50 30 = (0, 0) ∧ compHum 65535 128422 75 362 0 313 50 30 = (102400, 100000) := by decide

/-- The pressure of CAL-1 but for P1 and P2, at `t_fine = 128422`. -/
def press (p1 p2 : Int) (adcP : Word) : Word × Bool :=
  compPress adcP 128422 (BitVec.ofInt 32 p1) (BitVec.ofInt 32 p2) 3024 2855 140 (BitVec.ofInt 32 (-7)) 15500
    (BitVec.ofInt 32 (-14600)) 6000

/-- P-1, P-2: the two division paths. -/
theorem test_compP : press 36477 (-10685) 415148 = (100656, false) ∧ press 36477 (-10685) 0 = (173204, false) := by decide
/-- P-5, P-6, P-7, P-8, P-12: the denominator's corners. -/
theorem test_compP_den : press 65535 32767 415148 = (968, false) ∧ press 0 (-10685) 415148 = (0, true) ∧
    press 2 (-10685) 415148 = (3673424228, false) ∧ press 1 (-10685) 415148 = (0, true) ∧
    press 1 32767 415148 = (3673424228, false) := by decide

/-- P1: the results of a whole cycle. -/
theorem test_cycle :
    let s := atCommit (.cycle 1 .tempPress) (List.replicate 6 0 ++ 0xFF :: meas1) withCal1
    reads (exec (.cycle 1 .tempPress) s) 0x24 = some 0x9CC ∧ reads (exec (.cycle 1 .tempPress) s) 0x28 = some 0xD6D5 ∧
    reads (exec (.cycle 1 .tempPress) s) 0x30 = some 0x18930 ∧ reads (exec (.cycle 1 .tempPress) s) 0x08 = some 0x3EA := by
  decide

/-- CAPS of three builds (section 2 of the vectors). -/
theorem test_caps : capsWord {} = 0x6003 ∧ capsWord thBuild = 0x6000 ∧
    capsWord { rewriteHum := true, idRetry := true, xferTimeoutEn := true, h45Signed := true } = 0x601F := by decide

/-- The command placed is the one the next step checks: COMP_T right after reset has no calibration (R323). -/
theorem test_placed : reads (step (State.reset.withFetchWord 32 5)) 0x08 = some 0x3000 := by decide

/-- PR-8, R140: a CMD write while BUSY. -/
theorem test_overrun : reads (step (turns [.host] (host [.write 0x04 5] (atCheck .loadCal loaded)))) 0x0C = some 0x4 := by decide

/-! ## Witnesses: the hypotheses of each statement, met together by concrete values, a clause at a time -/

theorem witness_DecodeOfEncode : (Instr.configure 7 .tempPress).wellFormed .thp = true ∧
    (Instr.cycle 0 .tempHum).wellFormed .th = true ∧ Instr.compP.wellFormed .thp = true := by decide
theorem witness_EncodeOfDecode : decode .thp 0x278#32 = .ok (.cycle 7 .tempPress) ∧ decode .th 0x1#32 = .ok .identify := by
  decide
/-- One word for each item of R104, and a state that has such a word at its check step. -/
theorem witness_IllegalWordsComplete :
    (opOf 0x0#32 = 0 ∧ 9 ≤ opOf 0x9#32 ∧ bit7Of 0x81#32 = 1 ∧ highOf 0x401#32 ≠ 0 ∧ operandsOf 0x13#32 ≠ 0 ∧
      mselOf 0x302#32 = 3 ∧ mselOf 0x204#32 = 2 ∧ opOf 0x7#32 = 7) ∧
    (loaded.params.variant = .thp ∧ { loaded with phase := .check }.phase = .check ∧ IllegalWord .thp loaded.curCmd) :=
  ⟨by decide, rfl, rfl, .inl (.inl rfl)⟩
theorem witness_AssembledWords : (7 < 8 ∧ (0x25, 2) ∈ [(0x21, 0), (0x22, 1), (0x25, 2)]) ∧
    (8 ≤ 8 ∧ 0x23 ∉ [0x21, 0x22, 0x25]) := by decide
theorem witness_StepRunsDecoded :
    let s := turns [.sequencer] (atCheck .loadCal loaded)
    s.env.schedule = .sequencer :: [] ∧ s.phase ≠ .idle ∧ decode s.params.variant s.curCmd = .ok .loadCal := by decide
theorem witness_CommandOffered :
    let free := turns [.host] (host [.write 0x04 1] State.reset)
    let busy := turns [.host] (host [.write 0x04 1] (atCheck .loadCal loaded))
    (free.env.schedule = .host :: [] ∧ free.env.program = .write 0x04 1 :: [] ∧ free.status.busy = false) ∧
    (busy.env.schedule = .host :: [] ∧ busy.env.program = .write 0x04 1 :: [] ∧ busy.status.busy = true) := by decide
theorem witness_HostAccessSideEffects :
    (turns [.host] (host [.read 0xFC] loaded)).env.program = .read 0xFC :: [] ∧
    (turns [.host] (host [.write 0x08 7] loaded)).env.program = .write 0x08 7 :: [] ∧
    (turns [.host] (host [.write 0x0C 7] loaded)).env.program = .write 0x0C 7 :: [] ∧
    (turns [.host] (host [.write 0x0C 7] loaded)).env.schedule = .host :: [] ∧
    (0xFC : BitVec 8).toNat % 4 = 0 ∧ (0x08 : BitVec 8).toNat % 4 = 0 ∧ (0x0C : BitVec 8).toNat % 4 = 0 := by decide
theorem witness_MisalignedAccessRefused :
    (turns [.host] (host [.read 0x01] loaded)).env.program = .read 0x01 :: [] ∧
    (turns [.host] (host [.write 0xFF 0] loaded)).env.program = .write 0xFF 0 :: [] ∧
    (turns [.host] (host [.read 0x01] loaded)).env.schedule = .host :: [] ∧
    (0x01 : BitVec 8).toNat % 4 ≠ 0 ∧ (0xFF : BitVec 8).toNat % 4 ≠ 0 := by decide
theorem witness_UnmappedOffsets :
    let unmapped (off : BitVec 8) : Prop := off.toNat % 4 = 0 ∧
      ((0x34 ≤ off.toNat ∧ off.toNat ≤ 0x3C) ∨ (0x88 ≤ off.toNat ∧ off.toNat ≤ 0x8C) ∨ 0xBC ≤ off.toNat)
    unmapped 0x34 ∧ unmapped 0x3C ∧ unmapped 0x88 ∧ unmapped 0x8C ∧ unmapped 0xBC ∧ unmapped 0xFC := by decide
theorem witness_WaitPollsStatus :
    (turns [.host] (host [.wait] loaded)).env.program = .wait :: [] ∧
    (turns [.host] (host [.wait] loaded)).env.schedule = .host :: [] ∧
    (atCheck .loadCal loaded).status.word.getLsbD 4 = true := by decide
theorem witness_ResetAbandonsCommand :
    (turns [.reset] (atRun .loadCal 1 [] loaded)).env.schedule = .reset :: [] ∧
    (turns [.reset] (atRun .loadCal 1 [] loaded)).cs = true := by decide
theorem witness_CapsReportsParameters : ∃ t, step (turns [.sequencer] loaded) = .next t := ⟨_, rfl⟩
theorem witness_RegisterLayouts : loaded.params.variant = .thp ∧ { loaded with params := thBuild }.params.variant = .th ∧
    0x4C ≤ (0x4C : BitVec 8).toNat ∧ (0x6F : BitVec 8).toNat ≤ 0x6F := by decide
theorem witness_RawBytesPacked : 27 < 28 ∧ 7 < 8 := by decide

/-- The invariant inside a frame: IDENTIFY after its chip select and before its first transfer. -/
theorem inv_inside : (turns [.sequencer] (atRun .identify 1 [.byte 0xFF] State.reset)).Inv where
  busy := by decide
  status := by constructor <;> decide
  regs := by constructor <;> decide
  quiet := by rintro (h | h) <;> cases h
  running := fun _ => ⟨.identify,
    { decoded := by decide, script := by decide, received := by decide, select := by decide, inside := by decide,
      done := by decide, session := by decide, cycle := by decide, begun := by simp [beginsCycle] }⟩
theorem witness_StepKeepsInvariant :
    ∃ s t, State.Inv s ∧ step s = .next t ∧ s.phase = .run := ⟨_, _, inv_inside, rfl, rfl⟩
theorem witness_NoTrapUnderInvariant :
    (turns [.sequencer] (atRun .identify 1 [.byte 0xFF] State.reset)).Inv := inv_inside
theorem witness_DataRegistersChangeAtCommit :
    ∃ t, step (turns [.sequencer] (atCommit .identify [0, 0x60] State.reset)) = .next t ∧
      t.regs ≠ (turns [.sequencer] (atCommit .identify [0, 0x60] State.reset)).regs := ⟨_, rfl, by decide⟩
theorem witness_PositionAdvances :
    (∃ t, exec .loadCal (atCheck .loadCal loaded) = .next t ∧ t.phase = .run) ∧
    (∃ t, exec .loadCal (atRun .loadCal 38 [] loaded) = .next t ∧ t.phase = .commit) ∧
    (∃ t, exec .loadCal (atRun .loadCal 37 [.noAnswer] loaded) = .next t ∧ t.phase = .run) ∧
    (∃ t, exec .compT (atCommit .compT [] loaded) = .next t ∧ t.phase = .idle) :=
  ⟨⟨_, rfl, rfl⟩, ⟨_, rfl, rfl⟩, ⟨_, rfl, rfl⟩, ⟨_, rfl, rfl⟩⟩
theorem witness_ErrorsArePrecise :
    (∃ t, exec .compH (atCheck .compH loaded) = .next t ∧ t.phase = .idle ∧ t.status.lastErr = .noTfine) ∧
    (∃ t, exec (.cycle 1 .temp) (atRun (.cycle 1 .temp) 1 [.fault] loaded) = .next t ∧ t.phase = .idle ∧
      t.status.lastErr = .transport) ∧
    (∃ t, exec .identify (atCommit .identify [0x60, 0x00] State.reset) = .next t ∧ t.phase = .idle ∧
      t.status.lastErr = .deviceAbsent) := ⟨⟨_, rfl, rfl, rfl⟩, ⟨_, rfl, rfl, rfl⟩, ⟨_, rfl, rfl, rfl⟩⟩
theorem witness_HostCannotDisturbCommand :
    let s := turns [.host] (host [.write 0x04 1] (atRun .loadCal 1 [] loaded))
    s.env.schedule = .host :: [] ∧ s.status.busy = true ∧ ∃ t, step s = .next t := ⟨rfl, rfl, _, rfl⟩
theorem witness_SessionChangesAt :
    ∃ t, step (turns [.sequencer] (atCommit .identify [0, 0x60] State.reset)) = .next t ∧
      t.status.session ≠ (turns [.sequencer] (atCommit .identify [0, 0x60] State.reset)).status.session := ⟨_, rfl, by decide⟩
/-- CONFIGURED set by CONFIGURE, and cleared by reset. -/
theorem witness_ConfiguredIsInformational :
    (∃ t, step (turns [.sequencer] (atCommit (.configure 1 .temp) [] loaded)) = .next t ∧ t.status.configured = true) ∧
    (∃ t, step (turns [.reset] { loaded with status := { loaded.status with configured := true } }) = .next t ∧
      t.status.configured = false) := ⟨⟨_, rfl, rfl⟩, ⟨_, rfl, rfl⟩⟩
theorem witness_ExecOffersItsWord : loaded.phase = .idle ∧ loaded.status.busy = false ∧
    { loaded with status := { loaded.status with busy := true } }.status.busy = true := by decide
theorem witness_CheckCodes :
    Instr.compP.wellFormed .th = false ∧ (Instr.compT.wellFormed .th = true ∧ sessionCheck {} .compT .uninit ≠ .ok) ∧
    (Instr.compT.wellFormed .th = true ∧ sessionCheck {} .compT .calLoaded = .ok) ∧
    (Instr.compP.wellFormed .thp = true ∧ sessionCheck {} .compP .calLoaded = .ok) ∧
    sessionCheck {} .loadCal .idConfirmed = .ok := by decide
theorem witness_CheckStepOutcome :
    ((atCheck .compT loaded).phase = .check ∧ checkCode loaded.params .compT (atCheck .compT loaded).status ≠ .ok) ∧
    ((atCheck .loadCal loaded).phase = .check ∧ checkCode loaded.params .loadCal (atCheck .loadCal loaded).status = .ok) := by
  decide

/-- A concrete sensor with the calibration of CAL-1. -/
def sensor1 : Sensor := Sensor.powerOn cal1 (tail1 ++ List.replicate 9 0)

/-- The kinds of event: in IDENTIFY's script, events 0, 3 and 1, the last answered by a byte placed, by a sensor, by a byte
placed with a sensor attached, or by a draw. -/
theorem witness_RunStepPerformsEvent :
    (atRun .identify 0 [] State.reset).script[0]? = some .csAssert ∧
    (atRun .identify 3 [] State.reset).script[3]? = some .csDeassert ∧
    ((atRun .identify 1 [.byte 0xFF] State.reset).script[1]? = some (.xfer 0xD0) ∧
      (atRun .identify 1 [.byte 0xFF] State.reset).env.answers = .byte 0xFF :: [] ∧
      (atRun .identify 1 [.byte 0xFF] State.reset).env.sensor = none) ∧
    ((atRun .identify 1 [] { State.reset with env := { Env.empty with sensor := some sensor1 } }).env.answers = [] ∧
      (atRun .identify 1 [] { State.reset with env := { Env.empty with sensor := some sensor1 } }).env.sensor =
        some sensor1) ∧
    ((atRun .identify 1 [.byte 0xFF] { State.reset with env := { Env.empty with sensor := some sensor1 } }).env.answers =
        .byte 0xFF :: [] ∧
      (atRun .identify 1 [] State.reset).env.answers = [] ∧ (atRun .identify 1 [] State.reset).env.sensor = none) := by decide
theorem witness_RunStepNeverStops :
    (atRun .identify 3 [] State.reset).phase = .run ∧
    (atRun .identify 3 [] State.reset).ev < (atRun .identify 3 [] State.reset).script.length := by decide
/-- A transport fault with chip select asserted, and a transfer not answered in a build that times out. -/
theorem witness_FailedTransferAborts :
    let s := atRun (.measure 1 .temp) 1 [.fault] loaded
    let timed := { atRun (.measure 1 .temp) 1 [.noAnswer] loaded with params := { xferTimeoutEn := true } }
    (s.phase = .run ∧ s.script[s.ev]? = some (.xfer 0x72) ∧ s.env.answers = .fault :: [] ∧ s.cs = true) ∧
    (timed.phase = .run ∧ timed.script[timed.ev]? = some (.xfer 0x72) ∧ timed.env.answers = .noAnswer :: [] ∧
      timed.params.xferTimeoutEn = true) := by decide
theorem witness_UnansweredTransferWaits :
    let s := atRun .loadCal 1 [.noAnswer] loaded
    s.phase = .run ∧ s.script[s.ev]? = some (.xfer 0x88) ∧ s.env.answers = .noAnswer :: [] ∧
      s.params.xferTimeoutEn = false := by decide
/-- A command with port events and one without. -/
theorem witness_AnsweredCommandReachesCommit :
    let s := turns (List.replicate 5 .sequencer)
      { atCheck .identify State.reset with env := { Env.empty with answers := [.byte 0xFF, .byte 0x60] } }
    (s.phase = .check ∧ decode s.params.variant s.curCmd = .ok .identify ∧ checkCode s.params .identify s.status = .ok ∧
      s.cs = false ∧ s.env.sensor = none ∧ [0xFF#8, 0x60#8].length = transfersOf s.params .identify ∧
      s.env.answers = [0xFF#8, 0x60#8].map Answer.byte ++ [] ∧
      s.env.schedule = List.replicate ((scriptOf s.params .identify).length + 1) Turn.sequencer ++ []) ∧
    (scriptOf s.params .compT).length = 0 := by decide

theorem witness_IdentifyCommits :
    ((atCommit .identify [0xFF, 0x60] State.reset).phase = .commit ∧
      (atCommit .identify [0xFF, 0x60] State.reset).rx = [0xFF, 0x60]) ∧
    (let s := atCheck .loadCal { loaded with status := { Status.reset with session := .faulted } }
     s.phase = .check ∧ s.status.session = .faulted ∧ Instr.loadCal.wellFormed s.params.variant = true ∧
       ¬(Instr.loadCal = .identify ∧ s.params.idRetry = true)) := by decide
theorem witness_ConfigureCommits : (atCommit (.configure 7 .temp) (List.replicate 6 0) loaded).phase = .commit := by decide
theorem witness_LoadCalCommits :
    let s := atCommit .loadCal (0xFF :: (cal1 ++ 0xFE :: tail1)) loaded
    s.phase = .commit ∧ cal1.length = 26 ∧ tail1.length = 7 ∧ s.rx = 0xFF :: (cal1 ++ 0xFE :: tail1) := by decide
/-- Both lengths of the trigger frame; MEASURE and CYCLE share these hypotheses. -/
theorem witness_MeasureCommits :
    let s := atCommit (.measure 1 .temp) ([1, 2, 3, 4, 5, 6] ++ 0xFF :: meas1) loaded
    let short := atCommit (.measure 1 .temp) ([1, 2, 3, 4] ++ 0xFF :: meas1) { loaded with params := thBuild }
    (s.phase = .commit ∧ [1#8, 2, 3, 4, 5, 6].length = (if s.params.rewriteHum then 6 else 4) ∧ meas1.length = 8 ∧
      s.rx = [1, 2, 3, 4, 5, 6] ++ 0xFF :: meas1) ∧
    (short.phase = .commit ∧ [1#8, 2, 3, 4].length = (if short.params.rewriteHum then 6 else 4) ∧
      short.rx = [1, 2, 3, 4] ++ 0xFF :: meas1) := by decide
theorem witness_CycleCommits :
    let s := atCommit (.cycle 1 .tempPress) ([1, 2, 3, 4, 5, 6] ++ 0xFF :: meas1) withCal1
    s.phase = .commit ∧ [1#8, 2, 3, 4, 5, 6].length = (if s.params.rewriteHum then 6 else 4) ∧ meas1.length = 8 ∧
      s.rx = [1, 2, 3, 4, 5, 6] ++ 0xFF :: meas1 := by decide
theorem witness_CompCommits : (atCommit .compT [] withCal1).phase = .commit ∧ (atCommit .compH [] withCal1).phase = .commit ∧
    (atCommit .compP [] withCal1).phase = .commit := by decide

/-- A cycle at its commit step, as its check step left STATUS. -/
def cycleEnd (rx : List Byte) : State :=
  atCommit (.cycle 1 .temp) rx { withCal1 with status := { loaded.status with cycle := .inFlight } }
theorem witness_CycleEqualsSequence :
    (cycleEnd (List.replicate 15 0)).phase = .commit ∧
    (cycleEnd (List.replicate 15 0)).rx.length = (if (cycleEnd []).params.rewriteHum then 15 else 13) ∧
    (cycleEnd (List.replicate 15 0)).status.session = .calLoaded ∧ (cycleEnd (List.replicate 15 0)).status.Begun :=
  ⟨rfl, rfl, rfl, by constructor <;> decide⟩
theorem witness_CycleRepeatable :
    let s := cycleEnd ([1, 2, 3, 4, 5, 6] ++ 7 :: meas1)
    let s' := cycleEnd ([8, 8, 8, 8, 8, 8] ++ 9 :: meas1)
    (s.phase = .commit ∧ s'.phase = .commit ∧ s.params = s'.params ∧ s.regs.dig = s'.regs.dig ∧ meas1.length = 8 ∧
      [1#8, 2, 3, 4, 5, 6].length = (if s.params.rewriteHum then 6 else 4) ∧
      s.rx = [1, 2, 3, 4, 5, 6] ++ 7 :: meas1 ∧ s'.rx = [8, 8, 8, 8, 8, 8] ++ 9 :: meas1 ∧ s.params.variant = .thp) ∧
    (∃ t, exec (.cycle 1 .temp) s = .next t) ∧ ∃ t', exec (.cycle 1 .temp) s' = .next t' := ⟨by decide, ⟨_, rfl⟩, ⟨_, rfl⟩⟩

theorem witness_CoefficientsAssembled : ({} : Params).variant = .thp ∧ thBuild.variant = .th := by decide
theorem witness_NibbleFieldsAssembled :
    ({} : Params).h45Signed = false ∧ { ({} : Params) with h45Signed := true }.h45Signed = true := by decide
theorem witness_ByteOrderMatters : tail1.length = 7 ∧ 6 < 7 ∧ (0 : Nat) ≠ 3 ∧ (0 : Nat) ≠ 4 ∧ (0 : Nat) ≠ 5 ∧ (3 : Nat) ≠ 0 ∧
    (3 : Nat) ≠ 1 ∧ (3 : Nat) ≠ 2 ∧ (0 : Nat) ≠ 6 ∧
    cal1.length = 26 ∧ 25 < 26 ∧ 25 / 2 ≠ 11 ∧ (1 : Nat) / 2 ≠ 11 := by decide
theorem witness_PressureDenominator : (press 0 (-10685) 415148).2 = true ∧ (press 1 (-10685) 415148).2 = true ∧
    (press 1 32767 415148).2 = false := by decide
/-- The last dividend of the first path and the first of the second. -/
theorem witness_SplitDivision : (3 : Word) ≠ 0 ∧ (0x7FFFFFFF : Word).toNat < 2 ^ 31 ∧ 2 ^ 31 ≤ (0x80000000 : Word).toNat := by
  decide

theorem witness_ProtocolFrame :
    (∃ t, exec .identify (atCommit .identify [0, 0x60] State.reset) = .next t) ∧
    (∃ t, exec (.configure 1 .temp) (atCommit (.configure 1 .temp) [] loaded) = .next t) ∧
    (∃ t, exec .loadCal (atCommit .loadCal (0 :: (cal1 ++ 0 :: tail1)) loaded) = .next t) ∧
    (atCommit .loadCal [] loaded).phase ≠ .idle := ⟨⟨_, rfl⟩, ⟨_, rfl⟩, ⟨_, rfl⟩, by decide⟩
theorem witness_MeasureCycleFrame :
    (∃ t, exec (.measure 1 .temp) (atCommit (.measure 1 .temp) (List.replicate 15 0) loaded) = .next t) ∧
    (∃ t, exec (.cycle 1 .temp) (cycleEnd (List.replicate 15 0)) = .next t) ∧
    (cycleEnd (List.replicate 15 0)).phase ≠ .idle := ⟨⟨_, rfl⟩, ⟨_, rfl⟩, by decide⟩
theorem witness_CompensationFrame :
    (∃ t, exec .compT (atCommit .compT [] withCal1) = .next t) ∧ (∃ t, exec .compH (atCommit .compH [] withCal1) = .next t) ∧
    (∃ t, exec .compP (atCommit .compP [] withCal1) = .next t) ∧
    (atCommit .compP [] withCal1).phase ≠ .idle ∧ (atCheck .compP withCal1).phase ≠ .run :=
  ⟨⟨_, rfl⟩, ⟨_, rfl⟩, ⟨_, rfl⟩, by decide, by decide⟩
theorem witness_SequencerLeavesHostAlone : ∃ t, exec .loadCal (atRun .loadCal 1 [.fault] loaded) = .next t := ⟨_, rfl⟩
/-- R85, R346: two forced-mode writes are two conversions, of which the first skips the humidity; the sensor sleeps after the
second. -/
theorem test_two_triggers :
    let sn := ((sensor1.write 0xF4 0x21).write 0xF2 0x01).write 0xF4 0x26
    sn.measuring.length = 2 ∧ (sn.converted 7 8 9).hum = 0x8000 ∧ (sn.converted 7 8 9).temp = 8 ∧
    (sn.converted 7 8 9).statusByte = 0x08 ∧ ((sn.converted 7 8 9).converted 7 8 9).hum = 9 ∧
    ((sn.converted 7 8 9).converted 7 8 9).press = 7 ∧ ((sn.converted 7 8 9).converted 7 8 9).ctrlMeas = 0x24 ∧
    ((sn.converted 7 8 9).converted 7 8 9).measuring = [] := by decide
/-- Every mode, and a conversion that ends with and without another behind it. -/
theorem witness_ForcedWriteTriggers :
    (0x21 : Byte).toNat % 4 = 1 ∧ (0x22 : Byte).toNat % 4 = 2 ∧ (0xFC : Byte).toNat % 4 = 0 ∧ (0xFF : Byte).toNat % 4 = 3 ∧
    (sensor1.write 0xF4 0x21).measuring = conversionOf 0x21 0 :: [] ∧
    ((sensor1.write 0xF4 0x21).write 0xF4 0x25).measuring = conversionOf 0x21 0 :: [conversionOf 0x25 0] ∧
    sensor1.measuring = [] := by decide
/-- The whole calibration burst of 26 registers. -/
theorem witness_SensorBurstRead : (0x88 : Byte).getLsbD 7 = true ∧
    (∀ k, k < 26 → (sensor1.read (0x88 + BitVec.ofNat 8 k)).isSome = true) ∧ 7 < 8 := by decide

end Sys2Proof.Tests
end

/-! # Scope (spec/00_scope.md): the machine never traps, and the sequencer leaves the host alone -/

namespace Sys2Proof.Machine

/-! ## What the sequencer leaves of the world outside the engine -/

/-- `y` holds the host's side of `x`, and a port record that continues that of `x`. -/
structure Env.HostKept (x y : Env) : Prop where
  program  : y.program = x.program
  reads    : y.reads = x.reads
  schedule : y.schedule = x.schedule
  port     : ∃ events, y.port = x.port ++ events

namespace Env.HostKept

theorem refl (x : Env) : x.HostKept x := ⟨rfl, rfl, rfl, [], by simp⟩

theorem trans {x y z : Env} (hxy : x.HostKept y) (hyz : y.HostKept z) : x.HostKept z := by
  obtain ⟨before, hbefore⟩ := hxy.port
  obtain ⟨after, hafter⟩ := hyz.port
  exact ⟨hyz.program.trans hxy.program, hyz.reads.trans hxy.reads, hyz.schedule.trans hxy.schedule,
    before ++ after, by rw [hafter, hbefore, List.append_assoc]⟩

theorem perform (e : PortEvent) (x : Env) : x.HostKept (x.perform e) := ⟨rfl, rfl, rfl, [e], rfl⟩

theorem select (x : Env) : x.HostKept x.select := ⟨rfl, rfl, rfl, [.csAssert], rfl⟩

theorem release (x : Env) : x.HostKept x.release := ⟨rfl, rfl, rfl, [.csDeassert], rfl⟩

theorem disturbSensor (x : Env) : x.HostKept x.disturbSensor := ⟨rfl, rfl, rfl, [], by simp⟩

theorem transfer (out : Byte) (x : Env) : x.HostKept (x.transfer out).2 := by
  obtain ⟨hport, hreads, hprogram, hschedule⟩ := transfer_frame out x
  exact ⟨hprogram, hreads, hschedule, [], by simp [hport]⟩

end Env.HostKept

/-- `t` is of the build of `s`, with the host's side of `s` kept. -/
structure State.HostKept (s t : State) : Prop where
  params : t.params = s.params
  env    : s.env.HostKept t.env

theorem State.HostKept.of_env_eq {s t : State} (hparams : t.params = s.params) (henv : t.env = s.env) : s.HostKept t :=
  ⟨hparams, henv ▸ .refl _⟩

theorem offer_hostKept (w : Word) (s : State) : s.HostKept (offer w s) := by
  obtain ⟨-, hparams, henv, -⟩ := offer_frame w s
  exact .of_env_eq hparams henv

theorem abort_hostKept (action : Status → Status) (c : Code) (s : State) : s.HostKept (abort action c s) := by
  rw [abort_eq]
  refine ⟨rfl, ?_⟩
  dsimp only
  split
  · exact (Env.HostKept.disturbSensor _).trans (.release _)
  · exact .disturbSensor _

theorem checkStep_hostKept (i : Instr) (begin : Status → Status) (s : State) : s.HostKept (checkStep i begin s) := by
  by_cases h : checkCode s.params i s.status = .ok
  · rw [checkStep_passed begin h]
    exact .of_env_eq rfl rfl
  · rw [checkStep_refused begin h]
    exact .of_env_eq rfl rfl

theorem transferStep_hostKept (action : Status → Status) (out : Byte) (s : State) :
    s.HostKept (transferStep action out s) := by
  have answered : s.env.HostKept (s.env.transfer out).2 := .transfer out s.env
  rcases transferStep_cases action out s with ⟨i, env, henv, hstep⟩ | ⟨env, henv, hstep⟩ | ⟨env, henv, -, hstep⟩
  · rw [hstep]
    rw [henv] at answered
    exact ⟨rfl, answered.trans (.perform _ _)⟩
  · rw [henv] at answered
    obtain ⟨hparams, haborted⟩ := abort_hostKept action .transport { s with env := env.perform (.xfer out) }
    rw [hstep]
    exact ⟨hparams, (answered.trans (.perform _ _)).trans haborted⟩
  · rw [hstep]
    rw [henv] at answered
    exact ⟨rfl, answered⟩

theorem runStep_missing {s : State} (action : Status → Status) (h : s.script[s.ev]? = none) :
    runStep action s = .fault .eventMissing := by
  unfold runStep
  rw [h]

theorem runStep_hostKept {s t : State} {action : Status → Status} (h : runStep action s = .next t) : s.HostKept t := by
  cases he : s.script[s.ev]? with
  | none =>
    rw [runStep_missing action he] at h
    cases h
  | some e =>
    rcases runStep_cases action he with ⟨-, hstep⟩ | ⟨-, hstep⟩ | ⟨out, -, hstep⟩
    all_goals
      rw [hstep] at h
      cases h
    · exact ⟨rfl, .select _⟩
    · exact ⟨rfl, .release _⟩
    · exact transferStep_hostKept action out s

theorem commitOf_hostKept {i : Instr} {s t : State} (h : commitOf i s = .next t) : s.HostKept t := by
  rcases commit_cases i s with ⟨c, u, hcommit, hparams, -, -, -, henv, -⟩ | hfault
  · rw [hcommit] at h
    cases h
    exact .of_env_eq hparams henv
  · rw [hfault] at h
    cases h

theorem exec_hostKept {i : Instr} {s t : State} (h : exec i s = .next t) : s.HostKept t := by
  cases hphase : s.phase with
  | idle =>
    rw [exec_idle i hphase] at h
    cases h
    exact offer_hostKept _ s
  | check =>
    rw [exec_check i hphase] at h
    cases h
    exact checkStep_hostKept i _ s
  | run => exact runStep_hostKept (exec_run i hphase ▸ h)
  | commit => exact commitOf_hostKept (exec_commit i hphase ▸ h)

/-! ## From a state of the invariant no step faults -/

theorem transfersIn_readFrame (addr : Byte) (n : Nat) : transfersIn (readFrame addr n) = n + 1 := by
  simp [transfersIn, readFrame, PortEvent.isTransfer, List.countP_cons, List.countP_append, List.countP_replicate]

theorem transfersIn_writeFrame (pairs : List (Byte × Byte)) : transfersIn (writeFrame pairs) = 2 * pairs.length := by
  have hpairs : (pairs.flatMap writePair).countP PortEvent.isTransfer = 2 * pairs.length := by
    induction pairs with
    | nil => rfl
    | cons p ps ih =>
      have hpair : (writePair p).countP PortEvent.isTransfer = 2 := rfl
      rw [List.flatMap_cons, List.countP_append, hpair, ih, List.length_cons]
      omega
  simp [transfersIn, writeFrame, PortEvent.isTransfer, List.countP_append, hpairs]

theorem transfersIn_append (as bs : List PortEvent) : transfersIn (as ++ bs) = transfersIn as + transfersIn bs :=
  List.countP_append

theorem transfersIn_trigFrame (p : Params) (h : BitVec 3) (m : MeasSel) :
    transfersIn (trigFrame p h m) = trigTransfers p := by
  unfold trigFrame trigTransfers
  split <;> exact transfersIn_writeFrame _

/-- The script of a command performs the transfers whose bytes its commit reads. -/
theorem transfersIn_scriptOf (p : Params) (i : Instr) : transfersIn (scriptOf p i) = transfersOf p i := by
  cases i with
  | identify => exact transfersIn_readFrame _ 1
  | configure h m => exact transfersIn_writeFrame _
  | loadCal => exact (transfersIn_append _ _).trans (congrArg₂ _ (transfersIn_readFrame _ 26) (transfersIn_readFrame _ 7))
  | measure h m =>
    exact (transfersIn_append _ _).trans (congrArg₂ _ (transfersIn_trigFrame p h m) (transfersIn_readFrame _ 8))
  | cycle h m =>
    exact (transfersIn_append _ _).trans (congrArg₂ _ (transfersIn_trigFrame p h m) (transfersIn_readFrame _ 8))
  | compT => rfl
  | compH => rfl
  | compP => rfl

theorem State.Running.rx_length_of_commit {s : State} {i : Instr} (h : s.Running i) (hphase : s.phase = .commit) :
    s.rx.length = transfersOf s.params i := by
  rw [h.received, h.done hphase, List.take_length, h.script, transfersIn_scriptOf]

/-- A commit step answers a next state when the bytes of its script are there. -/
theorem commitOf_next {i : Instr} {s : State} (h : s.rx.length = transfersOf s.params i) :
    ∃ t, commitOf i s = .next t := by
  cases i with
  | identify =>
    obtain ⟨control, chip, hrx⟩ := List.length_eq_two.mp h
    simp only [commitOf, commitIdentify, hrx]
    split <;> exact ⟨_, rfl⟩
  | configure _ _ => exact ⟨_, rfl⟩
  | loadCal => exact ⟨_, if_pos h⟩
  | measure _ _ => exact ⟨_, if_pos h⟩
  | compT => exact ⟨_, rfl⟩
  | compH => exact ⟨_, rfl⟩
  | compP => exact ⟨_, rfl⟩
  | cycle _ _ => exact ⟨_, if_pos h⟩

theorem runStep_next {s : State} (action : Status → Status) (h : s.ev < s.script.length) :
    ∃ t, runStep action s = .next t := by
  rcases runStep_cases action (List.getElem?_eq_getElem h) with ⟨-, hstep⟩ | ⟨-, hstep⟩ | ⟨out, -, hstep⟩
  all_goals exact ⟨_, hstep⟩

/-- The invariant says nothing of what stands outside the engine. -/
theorem State.Inv.withEnv {s : State} (h : s.Inv) (e : Env) : { s with env := e }.Inv where
  busy := h.busy
  status := h.status
  regs := h.regs
  quiet hphase :=
    have q := h.quiet hphase
    ⟨q.script, q.ev, q.rx, q.cs⟩
  running hphase :=
    have ⟨i, r⟩ := h.running hphase
    ⟨i, r.decoded, r.script, r.received, r.select, r.inside, r.done, r.session, r.cycle, r.begun⟩

theorem sequencerStep_idle {s : State} (h : s.phase = .idle) : sequencerStep s = .next s := if_pos h

theorem sequencerStep_illegal {s : State} {e : Illegal} (hphase : s.phase = .check)
    (h : decode s.params.variant s.curCmd = .error e) : sequencerStep s = .next (checkIllegal s) := by
  simp [sequencerStep, hphase, h]

/-- The sequencer's step from the invariant, by PHASE: only a run step whose event is missing and a commit step whose bytes
are missing could fault, and `State.Running` has both. -/
theorem State.Inv.sequencerStep_next {s : State} (h : s.Inv) : ∃ t, sequencerStep s = .next t := by
  cases hphase : s.phase with
  | idle => exact ⟨_, sequencerStep_idle hphase⟩
  | check =>
    cases hdecode : decode s.params.variant s.curCmd with
    | error e => exact ⟨_, sequencerStep_illegal hphase hdecode⟩
    | ok i => exact ⟨_, (sequencerStep_decoded (by simp [hphase]) hdecode).trans (exec_check i hphase)⟩
  | run =>
    obtain ⟨i, hrunning⟩ := h.running (.inl hphase)
    rw [sequencerStep_decoded (by simp [hphase]) hrunning.decoded, exec_run i hphase]
    exact runStep_next _ (hrunning.inside hphase)
  | commit =>
    obtain ⟨i, hrunning⟩ := h.running (.inr hphase)
    rw [sequencerStep_decoded (by simp [hphase]) hrunning.decoded, exec_commit i hphase]
    exact commitOf_next (hrunning.rx_length_of_commit hphase)

/-- A step that answers `r` does not trap: `r` is a next state, or the refusal of a misaligned access of the host. -/
def Untrapped (r : Result) : Prop :=
  (∃ t, r = .next t) ∨ ∃ off : BitVec 8, off.toNat % 4 ≠ 0 ∧ r = .refused (.misalignedHostAccess off)

theorem untrapped_next (t : State) : Untrapped (.next t) := .inl ⟨t, rfl⟩

theorem untrapped_ite_aligned (off : BitVec 8) (t : State) :
    Untrapped (if aligned off then .next t else .refused (.misalignedHostAccess off)) := by
  split
  · exact untrapped_next t
  · next h => exact .inr ⟨off, mt (aligned_iff off).mpr h, rfl⟩

/-- The host's step, in any state, by the access at the head of its program. -/
theorem hostStep_untrapped (s : State) : Untrapped (hostStep s) := by
  unfold hostStep
  split
  · exact untrapped_next _
  · exact untrapped_ite_aligned _ _
  · exact untrapped_ite_aligned _ _
  · split <;> exact untrapped_next _

theorem State.Inv.takeTurn_untrapped {s : State} (h : s.Inv) (turn : Turn) : Untrapped (takeTurn turn s) := by
  cases turn with
  | host => exact hostStep_untrapped s
  | sequencer => exact .inl h.sequencerStep_next
  | reset => exact untrapped_next _
  | converted p t hum => exact untrapped_next _

/-! ## The obligations -/

/-- Settles O19: whoever's turn it is, the state the turn finds meets the invariant. -/
theorem noTrapUnderInvariant : Obligations.NoTrapUnderInvariant := by
  intro s h
  exact (h.withEnv (nextTurn s.env).2).takeTurn_untrapped (nextTurn s.env).1

/-- Settles O58, by PHASE: each of the sequencer's steps keeps the host's side. -/
theorem sequencerLeavesHostAlone : Obligations.SequencerLeavesHostAlone := by
  intro i s t h
  obtain ⟨hparams, hprogram, hreads, hschedule, hport⟩ := exec_hostKept h
  exact ⟨hparams, hprogram, hreads, hschedule, hport⟩

end Sys2Proof.Machine

/-! # State (spec/10_state.md): the invariant, what the registers read as, and what changes them -/

namespace Sys2Proof.Machine

/-! ## STATUS keeps its rules -/

namespace Status.Consistent

/-- The rules of STATUS say nothing of BUSY, CONFIGURED and LAST_ERR. -/
theorem of_unruled {v : Variant} {x : Status} (h : x.Consistent v) (busy configured : Bool) (code : Code) :
    { x with busy := busy, configured := configured, lastErr := code }.Consistent v :=
  { h with }

theorem accept {v : Variant} {x : Status} (h : x.Consistent v) : x.accept.Consistent v := h.of_unruled _ _ _

theorem complete {v : Variant} {x : Status} (h : x.Consistent v) (code : Code) : (x.complete code).Consistent v :=
  h.of_unruled _ _ _

/-- Without its calibration a session has no result, so it may change to any other without one. -/
theorem withSession {v : Variant} {x : Status} (h : x.Consistent v) (hx : x.session ≠ .calLoaded) (session : Session) :
    { x with session := session }.Consistent v :=
  { h with
    raw_loaded := fun hraw => absurd (h.raw_loaded hraw) hx
    idle_unless := fun _ => h.idle_unless hx }

theorem loadCal (v : Variant) (x : Status) : x.loadCal.Consistent v := by
  constructor <;> simp

theorem beginCycle (v : Variant) {x : Status} (hx : x.session = .calLoaded) : x.beginCycle.Consistent v := by
  constructor <;> simp [hx]

/-- UPDATE_CYCLE after a compensation: the results that were valid stay so, and CYCLE was ready only if all were. -/
theorem updateCycle {v : Variant} {x y : Status} (h : x.Consistent v) (hcycle : y.cycle = x.cycle)
    (hsession : y.session = .calLoaded) (hraw : y.rawValid = true) (htfine : y.tfineValid = true) (ht : y.tValid = true)
    (hhum : x.hValid = true → y.hValid = true) (hpress : x.pValid = true → y.pValid = true)
    (hth : v = .th → y.pValid = false ∧ y.pDenZero = false) : (y.updateCycle v).Consistent v := by
  have hkept (hready : y.cycle = .resultReady) : y.allValid v = true := by
    obtain ⟨-, hhx, hpx⟩ := h.ready_iff.mp (hcycle ▸ hready)
    exact (allValid_iff v y).mpr ⟨ht, hhum hhx, hpx.imp_left hpress⟩
  rw [updateCycle_eq]
  exact
    { tfine_eq_t := htfine.trans ht.symm
      tfine_raw := fun _ => hraw
      hum_tfine := fun _ => htfine
      press_tfine := fun _ => htfine
      th_no_press := hth
      ready_iff := by
        rw [← allValid_iff]
        split
        · next hvalid => exact iff_of_true rfl hvalid
        · next hvalid => exact iff_of_false (mt hkept hvalid) hvalid
      raw_loaded := fun _ => hsession
      idle_unless := fun hx => absurd hsession hx }

end Status.Consistent

namespace Status.Begun

/-- An abandoned cycle has no result. -/
theorem abandonCycle {v : Variant} {x : Status} (h : x.Begun) : x.abandonCycle.Consistent v := by
  constructor <;> simp [h.raw, h.tfine, h.temp, h.hum, h.press, h.denZero]

/-- MEASURE's commit makes the counts valid and nothing else. -/
theorem measured {v : Variant} {x : Status} (h : x.Begun) (hx : x.session = .calLoaded) :
    { x with rawValid := true }.Consistent v := by
  constructor <;> simp [h.cycle, h.tfine, h.temp, h.hum, h.press, h.denZero, hx]

theorem cycleDone {v : Variant} {x : Status} (h : x.Begun) (hx : x.session = .calLoaded) (z : Bool) :
    (x.cycleDone v z).Consistent v := by
  cases v <;> constructor <;> simp [Status.cycleDone, h.press, h.denZero, hx]

end Status.Begun

/-! ## The data registers keep their ranges -/

theorem humClamp_toNat_le (v : Word) : (humClamp v).toNat ≤ 419430400 := by
  unfold humClamp
  split
  · decide
  · split
    · decide
    · next hneg hmax =>
      have hlow : (0 : Word).toInt ≤ v.toInt := not_lt.mp (mt BitVec.slt_iff_toInt_lt.mpr hneg)
      have hhigh : v.toInt ≤ (419430400 : Word).toInt := not_lt.mp (mt BitVec.slt_iff_toInt_lt.mpr hmax)
      have hzero : (0 : Word).toInt = 0 := rfl
      have hmaximum : (419430400 : Word).toInt = 419430400 := by decide
      have hcond := BitVec.toInt_eq_toNat_cond v
      split at hcond <;> omega

theorem milliOfQ10_toNat_le {q10 : Word} (h : q10.toNat ≤ 102400) : (milliOfQ10 q10).toNat ≤ 100000 := by
  have hprod : (q10 * 1000).toNat = q10.toNat * 1000 :=
    (BitVec.toNat_mul q10 1000).trans (Nat.mod_eq_of_lt (by simp; omega))
  have hquot : (milliOfQ10 q10).toNat = (q10 * 1000).toNat / 1024 := BitVec.toNat_udiv ..
  omega

/-- The clamp bounds both words of the humidity (R46). -/
theorem compHum_toNat_le (adcH tf h1 h2 h3 h4 h5 h6 : Word) :
    (compHum adcH tf h1 h2 h3 h4 h5 h6).1.toNat ≤ 102400 ∧ (compHum adcH tf h1 h2 h3 h4 h5 h6).2.toNat ≤ 100000 := by
  have hq10 : (humClamp (humPolynomial adcH tf h1 h2 h3 h4 h5 h6) >>> 12).toNat ≤ 102400 := by
    have := humClamp_toNat_le (humPolynomial adcH tf h1 h2 h3 h4 h5 h6)
    rw [BitVec.toNat_ushiftRight, Nat.shiftRight_eq_div_pow]
    omega
  exact ⟨hq10, milliOfQ10_toNat_le hq10⟩

theorem Regs.humidity_toNat_le (r : Regs) : r.humidity.1.toNat ≤ 102400 ∧ r.humidity.2.toNat ≤ 100000 := by
  unfold Regs.humidity
  exact compHum_toNat_le ..

namespace Regs.InRange

theorem withChipId {v : Variant} {r : Regs} (h : r.InRange v) (chip : Byte) : { r with chipId := chip }.InRange v :=
  { h with }

theorem storeTemperature {v : Variant} {r : Regs} (h : r.InRange v) : r.storeTemperature.InRange v :=
  { h with }

theorem storeHumidity {v : Variant} {r : Regs} (h : r.InRange v) : r.storeHumidity.InRange v := by
  obtain ⟨hq10, hmilli⟩ := r.humidity_toNat_le
  unfold Regs.storeHumidity
  exact { h with q10_max := hq10, milli_max := hmilli }

theorem storePressure {v : Variant} {r : Regs} (h : r.InRange v) (hv : v = .thp) : r.storePressure.InRange v :=
  { h with th_no_count := by simp [hv] }

theorem storeMeasurement {v : Variant} {r : Regs} (h : r.InRange v) {meas : List Byte} (hmeas : meas.length = 8) :
    (r.storeMeasurement v meas).InRange v :=
  { h with
    meas_bytes := hmeas
    th_no_count := by
      rintro rfl
      exact h.th_no_count rfl }

theorem storeCycle {v : Variant} {r : Regs} (h : r.InRange v) {meas : List Byte} (hmeas : meas.length = 8) :
    (r.storeCycle v meas).InRange v := (h.storeMeasurement hmeas).storeTemperature.storeHumidity

theorem storeCalibration {p : Params} {r : Regs} (h : r.InRange p.variant) {rx : List Byte} (hrx : rx.length = 35) :
    (r.storeCalibration p rx).InRange p.variant :=
  { h with
    cal_bytes := by simp [Regs.storeCalibration, calBytes, hrx]
    tail_bytes := by simp [Regs.storeCalibration, tailBytes, hrx]
    th_no_coeff := fun hv => by simp [Regs.storeCalibration, decodeCalibration, pressureField, hv] }

theorem reset (v : Variant) : Regs.reset.InRange v := by
  constructor <;> simp [Regs.reset, Coeffs.reset]

end Regs.InRange

/-! ## What the decoder and the check promise the later steps -/

theorem decodePlain_ok {w : Word} {i j : Instr} (h : decodePlain w i = .ok j) : j = i := by
  unfold decodePlain at h
  split at h
  · cases h; rfl
  · cases h

theorem decodeSelected_ok {v : Variant} {w : Word} {mk : BitVec 3 → MeasSel → Instr} {j : Instr}
    (h : decodeSelected v w mk = .ok j) : ∃ hum m, j = mk hum m ∧ m.wellFormed v = true := by
  unfold decodeSelected at h
  split at h
  · cases h
  · split at h
    · next m _ hm => cases h; exact ⟨_, m, rfl, hm⟩
    · cases h

/-- A word never decodes to an instruction the variant does not have (R104 items 5 and 6). -/
theorem decode_wellFormed {v : Variant} {w : Word} {i : Instr} (h : decode v w = .ok i) : i.wellFormed v = true := by
  have selected {mk : BitVec 3 → MeasSel → Instr} (hmk : ∀ hum m, (mk hum m).wellFormed v = m.wellFormed v)
      (hok : decodeSelected v w mk = .ok i) : i.wellFormed v = true := by
    obtain ⟨hum, m, rfl, hm⟩ := decodeSelected_ok hok
    exact (hmk hum m).trans hm
  unfold decode at h
  split at h
  · cases h
  split at h
  · rw [decodePlain_ok h]; rfl
  · exact selected (fun _ _ => rfl) h
  · rw [decodePlain_ok h]; rfl
  · exact selected (fun _ _ => rfl) h
  · rw [decodePlain_ok h]; rfl
  · rw [decodePlain_ok h]; rfl
  · split at h
    · cases h
    · next hv =>
      rw [decodePlain_ok h]
      cases v
      · exact absurd rfl hv
      · rfl
  · exact selected (fun _ _ => rfl) h
  · cases h

/-- The commands that work on a measurement: R323 permits them in CAL_LOADED alone. -/
def needsCalibration (i : Instr) : Bool :=
  match i with
  | .measure _ _ | .cycle _ _ | .compT | .compH | .compP => true
  | .identify | .configure _ _ | .loadCal => false

theorem sessionCheck_calLoaded {p : Params} {i : Instr} {x : Session} (hi : needsCalibration i = true)
    (h : sessionCheck p i x = .ok) : x = .calLoaded := by
  cases i <;> cases x <;> simp_all [needsCalibration, sessionCheck]

theorem sessionCheck_identify {p : Params} {x : Session} (h : sessionCheck p .identify x = .ok) : x ≠ .calLoaded := by
  rintro rfl
  cases h

theorem checkCode_ok {p : Params} {i : Instr} {x : Status} (h : checkCode p i x = .ok) :
    sessionCheck p i x.session = .ok ∧ cycleCheck i x = .ok := by
  unfold checkCode at h
  split at h
  · split at h
    · next hs => exact ⟨hs, h⟩
    · next hs => exact absurd h hs
  · cases h

theorem beginsCycle_needsCalibration {i : Instr} (h : beginsCycle i = true) : needsCalibration i = true := by
  cases i <;> simp_all [beginsCycle, needsCalibration]

/-! ## Chip select along a script -/

theorem csAfter_concat (events : List PortEvent) (e : PortEvent) :
    csAfter (events ++ [e]) = e.csNext (csAfter events) := List.foldl_concat ..

theorem csAfter_append_readFrame (before : List PortEvent) (addr : Byte) (n : Nat) :
    csAfter (before ++ readFrame addr n) = false := by
  simp [csAfter, readFrame, PortEvent.csNext]

theorem csAfter_append_writeFrame (before : List PortEvent) (pairs : List (Byte × Byte)) :
    csAfter (before ++ writeFrame pairs) = false := by
  simp [csAfter, writeFrame, PortEvent.csNext]

/-- A command whose script has run leaves chip select deasserted. -/
theorem csAfter_scriptOf (p : Params) (i : Instr) : csAfter (scriptOf p i) = false := by
  cases i with
  | identify => exact csAfter_append_readFrame [] _ _
  | configure h m => exact csAfter_append_writeFrame [] _
  | loadCal => exact csAfter_append_readFrame _ _ _
  | measure h m => exact csAfter_append_readFrame _ _ _
  | cycle h m => exact csAfter_append_readFrame _ _ _
  | compT => rfl
  | compH => rfl
  | compP => rfl

/-! ## The invariant, step by step -/

/-! ### Reset, completion and the host -/

theorem State.inv_resetWith (p : Params) (e : Env) : (State.resetWith p e).Inv where
  busy := by simp [State.resetWith, Status.reset]
  status := by constructor <;> simp [State.resetWith, Status.reset]
  regs := .reset _
  quiet _ := ⟨rfl, rfl, rfl, rfl⟩
  running h := by rcases h with h | h <;> cases h

/-- A command completes: what is left to show is what STATUS and the data registers hold, and the chip select. -/
theorem State.inv_complete {s : State} (code : Code) (hstatus : s.status.Consistent s.params.variant)
    (hregs : s.regs.InRange s.params.variant) (hcs : s.cs = false) : (complete code s).Inv where
  busy := by simp
  status := hstatus.complete code
  regs := hregs
  quiet _ := ⟨rfl, rfl, rfl, hcs⟩
  running h := by rcases h with h | h <;> cases h

/-- The invariant says nothing of EVENTS. -/
theorem State.Inv.withEvents {s : State} (h : s.Inv) (events : Events) : { s with events := events }.Inv where
  busy := h.busy
  status := h.status
  regs := h.regs
  quiet hphase := { h.quiet hphase with }
  running hphase :=
    have ⟨i, hrunning⟩ := h.running hphase
    ⟨i, { hrunning with }⟩

/-- A command is accepted with PHASE = IDLE only, where the sequencer holds nothing of another. -/
theorem State.Inv.accept {s : State} (h : s.Inv) (w : Word) (hbusy : s.status.busy = false) : (accept w s).Inv where
  busy := by simp
  status := h.status.accept
  regs := h.regs
  quiet _ :=
    have hidle : s.phase = .idle := by simpa [hbusy] using h.busy
    { h.quiet (.inl hidle) with }
  running hphase := by rcases hphase with hphase | hphase <;> cases hphase

theorem State.Inv.offer {s : State} (h : s.Inv) (w : Word) : (offer w s).Inv := by
  cases hbusy : s.status.busy with
  | true =>
    rw [offer_busy w hbusy]
    exact h.withEvents _
  | false =>
    rw [offer_free w hbusy]
    exact h.accept w hbusy

theorem State.Inv.hostWrite {s : State} (h : s.Inv) (off : BitVec 8) (v : Word) : (hostWrite off v s).Inv := by
  rcases hostWrite_cases off v s with ⟨-, hwrite⟩ | ⟨-, hwrite⟩ | ⟨-, -, hwrite⟩
  all_goals rw [hwrite]
  · exact h.offer v
  · exact h.withEvents _
  · exact h

/-- What the host's step can do: change nothing of the engine, or what a write does. -/
theorem hostStep_cases {s t : State} (h : hostStep s = .next t) :
    (∃ env, t = { s with env := env }) ∨ ∃ off v env, t = { hostWrite off v s with env := env } := by
  unfold hostStep at h
  split at h
  · cases h
    exact .inl ⟨_, rfl⟩
  · split at h <;> cases h
    exact .inl ⟨_, rfl⟩
  · split at h <;> cases h
    exact .inr ⟨_, _, _, rfl⟩
  · split at h <;> cases h <;> exact .inl ⟨_, rfl⟩

theorem State.Inv.hostStep {s t : State} (h : s.Inv) (hstep : hostStep s = .next t) : t.Inv := by
  rcases hostStep_cases hstep with ⟨env, rfl⟩ | ⟨off, v, env, rfl⟩
  · exact h.withEnv env
  · exact (h.hostWrite off v).withEnv env

/-! ### The check step -/

theorem beginOf_consistent {i : Instr} {v : Variant} {x : Status} {p : Params} (h : x.Consistent v)
    (hsession : sessionCheck p i x.session = .ok) : (beginOf i x).Consistent v := by
  unfold beginOf
  split
  · next hbegins => exact .beginCycle v (sessionCheck_calLoaded (beginsCycle_needsCalibration hbegins) hsession)
  · exact h

@[simp] theorem beginOf_busy (i : Instr) (x : Status) : (beginOf i x).busy = x.busy := by
  unfold beginOf
  split <;> rfl

@[simp] theorem beginOf_session (i : Instr) (x : Status) : (beginOf i x).session = x.session := by
  unfold beginOf
  split <;> rfl

/-- The begin action leaves what the check of its own command found (R324 asks nothing of MEASURE and CYCLE). -/
theorem cycleCheck_beginOf (i : Instr) (x : Status) : cycleCheck i (beginOf i x) = cycleCheck i x := by
  cases i <;> rfl

theorem beginOf_begun {i : Instr} (x : Status) (hi : beginsCycle i = true) : (beginOf i x).Begun := by
  rw [beginOf, if_pos hi]
  constructor <;> simp

theorem State.Inv.checkStep {s : State} {i : Instr} (h : s.Inv) (hphase : s.phase = .check)
    (hdecode : decode s.params.variant s.curCmd = .ok i) : (checkStep i (beginOf i) s).Inv := by
  obtain ⟨-, -, -, hcs⟩ := h.quiet (.inr hphase)
  by_cases hcode : checkCode s.params i s.status = .ok
  · obtain ⟨hsession, hcycle⟩ := checkCode_ok hcode
    have hbusy : s.status.busy = true := h.busy.mpr (by simp [hphase])
    rw [checkStep_passed _ hcode]
    exact
      { busy := by
          simp only [beginOf_busy, hbusy, true_iff]
          split <;> simp
        status := beginOf_consistent h.status hsession
        regs := h.regs
        quiet := fun hquiet => by simp only at hquiet; split at hquiet <;> simp at hquiet
        running := fun _ => ⟨i,
          { decoded := hdecode
            script := rfl
            received := rfl
            select := hcs
            inside := by simp +contextual [List.length_pos_iff]
            done := by simp +contextual
            session := by simpa using hsession
            cycle := (cycleCheck_beginOf i s.status).trans hcycle
            begun := beginOf_begun s.status }⟩ }
  · rw [checkStep_refused _ hcode]
    exact inv_complete _ h.status h.regs hcs

/-! ### The run step -/

theorem transfersIn_concat (events : List PortEvent) (e : PortEvent) :
    transfersIn (events ++ [e]) = transfersIn events + e.isTransfer.toNat := by
  cases e <;> simp [transfersIn, PortEvent.isTransfer]

/-- An event of the script has been performed: the sequencer stands behind it. -/
theorem State.Inv.advance {s : State} {i : Instr} {e : PortEvent} (h : s.Inv) (hrunning : s.Running i)
    (hphase : s.phase = .run) (he : s.script[s.ev]? = some e) {rx : List Byte} {cs : Bool} (env : Env)
    (hrx : rx.length = s.rx.length + e.isTransfer.toNat) (hcs : cs = e.csNext s.cs) :
    (advance { s with rx := rx, cs := cs, env := env }).Inv := by
  have htake : s.script.take (s.ev + 1) = s.script.take s.ev ++ [e] := by rw [List.take_add_one, he]; rfl
  have hinside : s.ev < s.script.length := hrunning.inside hphase
  exact
    { busy := by
        have hbusy : s.status.busy = true := h.busy.mpr (by simp [hphase])
        simp only [advance_status, advance_phase, hbusy, hphase, true_iff]
        split <;> simp
      status := h.status
      regs := h.regs
      quiet := fun hquiet => by simp only [advance_phase, hphase] at hquiet; split at hquiet <;> simp at hquiet
      running := fun _ => ⟨i,
        { hrunning with
          received := by simp [htake, transfersIn_concat, hrx, hrunning.received]
          select := by simp [htake, csAfter_concat, hcs, hrunning.select]
          inside := by
            intro hrun
            refine lt_of_le_of_ne hinside fun (hlast : s.ev + 1 = s.script.length) => ?_
            simp [hlast] at hrun
          done := by
            intro hcommit
            by_contra (hlast : ¬s.ev + 1 = s.script.length)
            simp [hlast, hphase] at hcommit }⟩ }

theorem abortOf_consistent {i : Instr} {v : Variant} {x : Status} (h : x.Consistent v)
    (hbegun : beginsCycle i = true → x.Begun) : (abortOf i x).Consistent v := by
  unfold abortOf
  split
  · next hbegins => exact (hbegun hbegins).abandonCycle
  · exact h

theorem State.inv_abort {s : State} {action : Status → Status} (code : Code)
    (hstatus : (action s.status).Consistent s.params.variant) (hregs : s.regs.InRange s.params.variant) :
    (abort action code s).Inv :=
  inv_complete code (by simpa) (by simpa) (by simp)

theorem State.Inv.transferStep {s : State} {i : Instr} {out : Byte} (h : s.Inv) (hrunning : s.Running i)
    (hphase : s.phase = .run) (he : s.script[s.ev]? = some (.xfer out)) : (transferStep (abortOf i) out s).Inv := by
  rcases transferStep_cases (abortOf i) out s with ⟨b, env, -, hstep⟩ | ⟨env, -, hstep⟩ | ⟨env, -, -, hstep⟩
  all_goals rw [hstep]
  · exact h.advance hrunning hphase he _ (by simp [PortEvent.isTransfer]) rfl
  · exact inv_abort _ (abortOf_consistent h.status hrunning.begun) h.regs
  · exact h.withEnv _

theorem State.Inv.runStep {s t : State} {i : Instr} (h : s.Inv) (hrunning : s.Running i) (hphase : s.phase = .run)
    (hstep : runStep (abortOf i) s = .next t) : t.Inv := by
  have he := List.getElem?_eq_getElem (hrunning.inside hphase)
  rcases runStep_cases (abortOf i) he with ⟨hevent, hnext⟩ | ⟨hevent, hnext⟩ | ⟨out, hevent, hnext⟩
  all_goals
    rw [hnext] at hstep
    rw [hevent] at he
    cases hstep
  · exact h.advance hrunning hphase he _ rfl rfl
  · exact h.advance hrunning hphase he _ rfl rfl
  · exact h.transferStep hrunning hphase he

/-! ### The commit step -/

theorem State.Running.cs_of_commit {s : State} {i : Instr} (h : s.Running i) (hphase : s.phase = .commit) :
    s.cs = false := by
  rw [h.select, h.done hphase, List.take_length, h.script, csAfter_scriptOf]

theorem State.Running.calLoaded {s : State} {i : Instr} (h : s.Running i) (hi : needsCalibration i = true) :
    s.status.session = .calLoaded := sessionCheck_calLoaded hi h.session

theorem measBytes_length {p : Params} {rx : List Byte} (h : rx.length = trigTransfers p + 9) :
    (measBytes p rx).length = 8 := by
  simp [measBytes, h]

theorem State.Inv.commitOf {s t : State} {i : Instr} (h : s.Inv) (hrunning : s.Running i) (hphase : s.phase = .commit)
    (hcommit : commitOf i s = .next t) : t.Inv := by
  have hcs := hrunning.cs_of_commit hphase
  have hrx := hrunning.rx_length_of_commit hphase
  cases i with
  | identify =>
    obtain ⟨control, chip, hbytes⟩ := List.length_eq_two.mp hrx
    have hsession := sessionCheck_identify hrunning.session
    simp only [Machine.commitOf, commitIdentify, hbytes] at hcommit
    split at hcommit
    all_goals
      cases hcommit
      exact inv_complete _ (h.status.withSession hsession _) (h.regs.withChipId chip) hcs
  | configure hum m =>
    cases hcommit
    exact inv_complete _ (h.status.of_unruled _ true _) h.regs hcs
  | loadCal =>
    cases (if_pos hrx).symm.trans hcommit
    exact inv_complete _ (.loadCal _ _) (h.regs.storeCalibration hrx) hcs
  | measure hum m =>
    cases (if_pos hrx).symm.trans hcommit
    exact inv_complete _ ((hrunning.begun rfl).measured (hrunning.calLoaded rfl)) (h.regs.storeMeasurement (measBytes_length hrx)) hcs
  | compT =>
    have hraw : s.status.rawValid = true := by simpa [cycleCheck] using hrunning.cycle
    cases hcommit
    exact inv_complete _ (h.status.updateCycle rfl (hrunning.calLoaded rfl) hraw rfl rfl id id h.status.th_no_press)
      h.regs.storeTemperature hcs
  | compH =>
    have htfine : s.status.tfineValid = true := by simpa [cycleCheck] using hrunning.cycle
    cases hcommit
    exact inv_complete _ (h.status.updateCycle rfl (hrunning.calLoaded rfl) (h.status.tfine_raw htfine) htfine
      (h.status.tfine_eq_t ▸ htfine) (fun _ => rfl) id h.status.th_no_press) h.regs.storeHumidity hcs
  | compP =>
    have htfine : s.status.tfineValid = true := by simpa [cycleCheck] using hrunning.cycle
    have hthp : s.params.variant = .thp := by simpa [Instr.wellFormed] using decode_wellFormed hrunning.decoded
    cases hcommit
    exact inv_complete _ (h.status.updateCycle rfl (hrunning.calLoaded rfl) (h.status.tfine_raw htfine) htfine
      (h.status.tfine_eq_t ▸ htfine) id (fun _ => rfl) (fun hth => by simp [hthp] at hth))
      (h.regs.storePressure hthp) hcs
  | cycle hum m =>
    cases (if_pos hrx).symm.trans hcommit
    refine inv_complete _ ((hrunning.begun rfl).cycleDone (hrunning.calLoaded rfl) _) ?_ hcs
    dsimp only
    split
    · next hthp => exact (h.regs.storeCycle (measBytes_length hrx)).storePressure hthp
    · exact h.regs.storeCycle (measBytes_length hrx)

/-! ### The turns -/

theorem State.Inv.checkIllegal {s : State} (h : s.Inv) (hphase : s.phase = .check) : (checkIllegal s).Inv :=
  inv_complete _ h.status h.regs (h.quiet (.inr hphase)).cs

theorem State.Inv.sequencerStep {s t : State} (h : s.Inv) (hstep : sequencerStep s = .next t) : t.Inv := by
  cases hphase : s.phase with
  | idle =>
    rw [sequencerStep_idle hphase] at hstep
    cases hstep
    exact h
  | check =>
    cases hdecode : decode s.params.variant s.curCmd with
    | error e =>
      rw [sequencerStep_illegal hphase hdecode] at hstep
      cases hstep
      exact h.checkIllegal hphase
    | ok i =>
      rw [sequencerStep_decoded (by simp [hphase]) hdecode, exec_check i hphase] at hstep
      cases hstep
      exact h.checkStep hphase hdecode
  | run =>
    obtain ⟨i, hrunning⟩ := h.running (.inl hphase)
    rw [sequencerStep_decoded (by simp [hphase]) hrunning.decoded, exec_run i hphase] at hstep
    exact h.runStep hrunning hphase hstep
  | commit =>
    obtain ⟨i, hrunning⟩ := h.running (.inr hphase)
    rw [sequencerStep_decoded (by simp [hphase]) hrunning.decoded, exec_commit i hphase] at hstep
    exact h.commitOf hrunning hphase hstep

theorem State.Inv.takeTurn {s t : State} (h : s.Inv) (turn : Turn) (hstep : takeTurn turn s = .next t) : t.Inv := by
  cases turn with
  | host => exact h.hostStep hstep
  | sequencer => exact h.sequencerStep hstep
  | reset =>
    cases hstep
    exact inv_resetWith _ _
  | converted press temp hum =>
    cases hstep
    exact h.withEnv _

/-! ## What a register reads as -/

theorem readOffset_of_regAt {s : State} {off : BitVec 8} {r : HostReg} (h : regAt off = some r) :
    readOffset s off = r.value s := by
  simp only [readOffset, h]

theorem toNat_append_add {m n : Nat} (x : BitVec m) (y : BitVec n) : (x ++ y).toNat = 2 ^ n * x.toNat + y.toNat := by
  rw [BitVec.toNat_append, ← Nat.shiftLeft_add_eq_or_of_lt y.isLt, Nat.shiftLeft_eq, Nat.mul_comm]

/-! The widths of a register's fields add up to 32 by computation only, so `erw` takes the concatenations apart. -/

/-- STATUS as a number is the sum of its fields at their bit positions (R33). -/
theorem Status.word_toNat (x : Status) :
    x.word.toNat =
      x.session.bits.toNat + 2 ^ 2 * x.cycle.bits.toNat + 2 ^ 4 * x.busy.toNat +
      2 ^ 5 * x.rawValid.toNat + 2 ^ 6 * x.tfineValid.toNat + 2 ^ 7 * x.tValid.toNat +
      2 ^ 8 * x.hValid.toNat + 2 ^ 9 * x.pValid.toNat + 2 ^ 10 * x.configured.toNat +
      2 ^ 11 * x.pDenZero.toNat + 2 ^ 12 * x.lastErr.bits.toNat := by
  unfold Status.word
  repeat erw [toNat_append_add]
  simp only [BitVec.toNat_ofNat, BitVec.toNat_ofBool]
  omega

theorem Events.word_toNat (x : Events) : x.word.toNat = x.done.toNat + 2 * x.err.toNat + 4 * x.overrun.toNat := by
  unfold Events.word
  repeat erw [toNat_append_add]
  simp only [BitVec.toNat_ofNat, BitVec.toNat_ofBool]
  omega

/-- A coefficient register reads as its coefficient where the variant has it (R48). -/
theorem readOffset_dig {s : State} {off : BitVec 8} {c : Coeff} (h : regAt off = some (.dig c))
    (hc : c.isPressure = false ∨ s.params.variant = .thp) : readOffset s off = s.regs.dig.word c := by
  rw [readOffset_of_regAt h]
  rcases hc with hc | hc <;> simp [HostReg.value, thpOnly, hc]

section Coefficients
variable {s : State} {off : BitVec 8} {c : Coeff} {w : Nat} {x : BitVec w}

/-- An unsigned coefficient is zero-extended by its register (R48). -/
theorem readOffset_toInt_unsigned (h : regAt off = some (.dig c)) (hword : s.regs.dig.word c = x.zeroExtend 32)
    (hc : c.isPressure = false ∨ s.params.variant = .thp) (hw : w < 32 := by decide) :
    (readOffset s off).toInt = x.toNat := by
  have hlt : x.toNat < 2 ^ 31 := x.isLt.trans_le (Nat.pow_le_pow_right (by decide) (by omega))
  rw [readOffset_dig h hc, hword, BitVec.toInt_eq_toNat_of_lt, BitVec.toNat_setWidth_of_le hw.le]
  rw [BitVec.toNat_setWidth_of_le hw.le]
  omega

/-- A signed coefficient is sign-extended by its register (R48). -/
theorem readOffset_toInt_signed (h : regAt off = some (.dig c)) (hword : s.regs.dig.word c = x.signExtend 32)
    (hc : c.isPressure = false ∨ s.params.variant = .thp) (hw : w ≤ 32 := by decide) :
    (readOffset s off).toInt = x.toInt := by
  rw [readOffset_dig h hc, hword, BitVec.toInt_signExtend_of_le hw]

end Coefficients

/-- The registers of the pressure side, which TH does not implement (spec/00_scope.md R6). -/
def HostReg.isPressure (r : HostReg) : Bool :=
  match r with
  | .adcP | .pOut => true
  | .dig c => c.isPressure
  | _ => false

theorem HostReg.value_th {s : State} {r : HostReg} (hr : r.isPressure = true) (hth : s.params.variant = .th) :
    r.value s = 0 := by
  cases r <;> simp_all [HostReg.isPressure, HostReg.value, thpOnly]

theorem readOffset_th {s : State} {off : BitVec 8} (hoff : (regAt off).all HostReg.isPressure = true)
    (hth : s.params.variant = .th) : readOffset s off = 0 := by
  unfold readOffset
  split
  · next r hr => exact HostReg.value_th (by simpa [hr] using hoff) hth
  · rfl

theorem regAt_pressureCoefficients : ∀ off : BitVec 8, 0x4C ≤ off.toNat → off.toNat ≤ 0x6F →
    (regAt off).all HostReg.isPressure = true := by decide

/-- The four bytes of a word, from the lowest. -/
theorem extractLsb'_fourBytes (b3 b2 b1 b0 : Byte) :
    (b3 ++ b2 ++ b1 ++ b0 : BitVec 32).extractLsb' 0 8 = b0 ∧ (b3 ++ b2 ++ b1 ++ b0 : BitVec 32).extractLsb' 8 8 = b1 ∧
      (b3 ++ b2 ++ b1 ++ b0 : BitVec 32).extractLsb' 16 8 = b2 ∧
      (b3 ++ b2 ++ b1 ++ b0 : BitVec 32).extractLsb' 24 8 = b3 := by
  refine ⟨BitVec.extractLsb'_append_eq_right .., ?_, ?_, ?_⟩
  · exact (BitVec.extractLsb'_append_eq_of_le (by decide)).trans (BitVec.extractLsb'_append_eq_right ..)
  · exact (BitVec.extractLsb'_append_eq_of_le (by decide)).trans
      ((BitVec.extractLsb'_append_eq_of_le (by decide)).trans (BitVec.extractLsb'_append_eq_right ..))
  · exact (BitVec.extractLsb'_append_eq_of_le (by decide)).trans
      ((BitVec.extractLsb'_append_eq_of_le (by decide)).trans (BitVec.extractLsb'_append_eq_left ..))

/-- Byte `k` of a buffer is byte `k mod 4` of word `k / 4` (R49). -/
theorem packWord_extractLsb' (bytes : List Byte) (k : Nat) :
    (packWord bytes (k / 4)).extractLsb' (8 * (k % 4)) 8 = bytes.getD k 0 := by
  obtain ⟨h0, h1, h2, h3⟩ := extractLsb'_fourBytes (bytes.getD (4 * (k / 4) + 3) 0) (bytes.getD (4 * (k / 4) + 2) 0)
    (bytes.getD (4 * (k / 4) + 1) 0) (bytes.getD (4 * (k / 4)) 0)
  have hk : 4 * (k / 4) + k % 4 = k := Nat.div_add_mod k 4
  have hfour : k % 4 = 0 ∨ k % 4 = 1 ∨ k % 4 = 2 ∨ k % 4 = 3 := by omega
  rcases hfour with hr | hr | hr | hr <;> rw [hr] at hk ⊢
  · exact h0.trans (congrArg (bytes.getD · 0) hk)
  · exact h1.trans (congrArg (bytes.getD · 0) hk)
  · exact h2.trans (congrArg (bytes.getD · 0) hk)
  · exact h3.trans (congrArg (bytes.getD · 0) hk)

theorem regAt_rawCal : ∀ j < 7, regAt (BitVec.ofNat 8 (0x90 + 4 * j)) = some (.rawCal j) := by decide
theorem regAt_rawTail : ∀ j < 2, regAt (BitVec.ofNat 8 (0xAC + 4 * j)) = some (.rawTail j) := by decide
theorem regAt_rawMeas : ∀ j < 2, regAt (BitVec.ofNat 8 (0xB4 + 4 * j)) = some (.rawMeas j) := by decide

/-! ## CAPS -/

theorem regAt_caps : regAt 0x00 = some .caps := by decide

theorem hostWrite_ignored {off : BitVec 8} (v : Word) (s : State) (hcmd : off ≠ 0x04) (hevents : off ≠ 0x0C) :
    hostWrite off v s = s := by
  obtain ⟨hnotCmd, hnotEvents⟩ := regAt_writable off hcmd hevents
  rcases hostWrite_cases off v s with ⟨h, -⟩ | ⟨h, -⟩ | ⟨-, -, hwrite⟩
  · exact absurd h hnotCmd
  · exact absurd h hnotEvents
  · exact hwrite

theorem readOffset_caps (s : State) : readOffset s 0x00 = capsWord s.params := readOffset_of_regAt regAt_caps

/-- The fields of CAPS over the 32 builds (R31). -/
theorem capsWord_fields (p : Params) :
    ((capsWord p).getLsbD 0 = true ↔ p.variant = .thp) ∧ (capsWord p).getLsbD 1 = p.rewriteHum ∧
      (capsWord p).getLsbD 2 = p.idRetry ∧ (capsWord p).getLsbD 3 = p.xferTimeoutEn ∧
      (capsWord p).getLsbD 4 = p.h45Signed ∧ (capsWord p).extractLsb' 5 3 = 0 ∧
      (capsWord p).extractLsb' 8 8 = 0x60#8 ∧ (capsWord p).extractLsb' 16 16 = 0 := by
  obtain ⟨variant, rewriteHum, idRetry, xferTimeoutEn, h45Signed⟩ := p
  cases variant <;> revert rewriteHum idRetry xferTimeoutEn h45Signed <;> decide

/-! ## What changes only at a commit step or a reset -/

/-- `t` holds the build and what of `s` no step but a commit and a reset writes. -/
structure State.CommittedKept (s t : State) : Prop where
  params     : t.params = s.params
  regs       : t.regs = s.regs
  session    : t.status.session = s.status.session
  configured : t.status.configured = s.status.configured

theorem State.CommittedKept.refl (s : State) : s.CommittedKept s := ⟨rfl, rfl, rfl, rfl⟩

theorem State.CommittedKept.withEnv {s t : State} (h : s.CommittedKept t) (env : Env) :
    s.CommittedKept { t with env := env } := ⟨h.params, h.regs, h.session, h.configured⟩

theorem State.CommittedKept.of_withEnv {s t : State} {env : Env} (h : { s with env := env }.CommittedKept t) :
    s.CommittedKept t := ⟨h.params, h.regs, h.session, h.configured⟩

theorem offer_committedKept (w : Word) (s : State) : s.CommittedKept (offer w s) := by
  cases h : s.status.busy with
  | true => rw [offer_busy w h]; exact ⟨rfl, rfl, rfl, rfl⟩
  | false => rw [offer_free w h]; exact ⟨rfl, rfl, rfl, rfl⟩

theorem hostWrite_committedKept (off : BitVec 8) (v : Word) (s : State) : s.CommittedKept (hostWrite off v s) := by
  rcases hostWrite_cases off v s with ⟨-, hwrite⟩ | ⟨-, hwrite⟩ | ⟨-, -, hwrite⟩
  all_goals rw [hwrite]
  · exact offer_committedKept v s
  · exact ⟨rfl, rfl, rfl, rfl⟩
  · exact .refl s

theorem hostStep_committedKept {s t : State} (h : hostStep s = .next t) : s.CommittedKept t := by
  rcases hostStep_cases h with ⟨env, rfl⟩ | ⟨off, v, env, rfl⟩
  · exact ⟨rfl, rfl, rfl, rfl⟩
  · exact (hostWrite_committedKept off v s).withEnv env

@[simp] theorem beginOf_configured (i : Instr) (x : Status) : (beginOf i x).configured = x.configured := by
  unfold beginOf
  split <;> rfl

@[simp] theorem abortOf_session (i : Instr) (x : Status) : (abortOf i x).session = x.session := by
  unfold abortOf
  split <;> rfl

@[simp] theorem abortOf_configured (i : Instr) (x : Status) : (abortOf i x).configured = x.configured := by
  unfold abortOf
  split <;> rfl

theorem checkStep_committedKept (i : Instr) (s : State) : s.CommittedKept (checkStep i (beginOf i) s) := by
  by_cases h : checkCode s.params i s.status = .ok
  · rw [checkStep_passed _ h]
    exact ⟨rfl, rfl, beginOf_session i _, beginOf_configured i _⟩
  · rw [checkStep_refused _ h]
    exact ⟨rfl, rfl, rfl, rfl⟩

theorem transferStep_committedKept (i : Instr) (out : Byte) (s : State) :
    s.CommittedKept (transferStep (abortOf i) out s) := by
  rcases transferStep_cases (abortOf i) out s with ⟨b, env, -, hstep⟩ | ⟨env, -, hstep⟩ | ⟨env, -, -, hstep⟩
  all_goals rw [hstep]
  · exact ⟨rfl, rfl, rfl, rfl⟩
  · rw [abort_eq]
    exact ⟨rfl, rfl, abortOf_session i _, abortOf_configured i _⟩
  · exact ⟨rfl, rfl, rfl, rfl⟩

theorem runStep_committedKept {s t : State} {i : Instr} (h : runStep (abortOf i) s = .next t) : s.CommittedKept t := by
  cases he : s.script[s.ev]? with
  | none =>
    rw [runStep_missing _ he] at h
    cases h
  | some e =>
    rcases runStep_cases (abortOf i) he with ⟨-, hstep⟩ | ⟨-, hstep⟩ | ⟨out, -, hstep⟩
    all_goals
      rw [hstep] at h
      cases h
    · exact ⟨rfl, rfl, rfl, rfl⟩
    · exact ⟨rfl, rfl, rfl, rfl⟩
    · exact transferStep_committedKept i out s

/-- What the sequencer's step can do: the commit of the command it holds, or nothing to what commits write. -/
theorem sequencerStep_cases {s t : State} (h : sequencerStep s = .next t) :
    (s.phase = .commit ∧ ∃ i, decode s.params.variant s.curCmd = .ok i ∧ commitOf i s = .next t) ∨ s.CommittedKept t := by
  by_cases hidle : s.phase = .idle
  · rw [sequencerStep_idle hidle] at h
    cases h
    exact .inr (.refl s)
  · cases hdecode : decode s.params.variant s.curCmd with
    | error e =>
      simp only [sequencerStep, if_neg hidle, hdecode] at h
      split at h
      · cases h
        exact .inr ⟨rfl, rfl, rfl, rfl⟩
      · cases h
    | ok i =>
      rw [sequencerStep_decoded hidle hdecode] at h
      cases hphase : s.phase with
      | idle => exact absurd hphase hidle
      | check =>
        rw [exec_check i hphase] at h
        cases h
        exact .inr (checkStep_committedKept i s)
      | run => exact .inr (runStep_committedKept (exec_run i hphase ▸ h))
      | commit => exact .inl ⟨rfl, i, rfl, exec_commit i hphase ▸ h⟩

/-- What a step of the machine can do to what commits write: reset it, commit a command, or leave it. -/
theorem step_cases {s t : State} (h : step s = .next t) :
    ((nextTurn s.env).1 = .reset ∧ t = platformReset { s with env := (nextTurn s.env).2 }) ∨
    ((nextTurn s.env).1 = .sequencer ∧ s.phase = .commit ∧ ∃ i, decode s.params.variant s.curCmd = .ok i ∧
      commitOf i { s with env := (nextTurn s.env).2 } = .next t) ∨
    s.CommittedKept t := by
  simp only [step, machineStep] at h
  cases hturn : (nextTurn s.env).1 with
  | host =>
    rw [hturn] at h
    exact .inr (.inr (hostStep_committedKept h).of_withEnv)
  | sequencer =>
    rw [hturn] at h
    rcases sequencerStep_cases h with ⟨hphase, i, hdecode, hcommit⟩ | hkept
    · exact .inr (.inl ⟨rfl, hphase, i, hdecode, hcommit⟩)
    · exact .inr (.inr hkept.of_withEnv)
  | reset =>
    rw [hturn] at h
    cases h
    exact .inl ⟨rfl, rfl⟩
  | converted press temp hum =>
    rw [hturn] at h
    cases h
    exact .inr (.inr ⟨rfl, rfl, rfl, rfl⟩)

theorem step_params {s t : State} (h : step s = .next t) : t.params = s.params := by
  rcases step_cases h with ⟨-, rfl⟩ | ⟨-, -, i, -, hcommit⟩ | hkept
  · rfl
  · exact (commitOf_hostKept hcommit).params
  · exact hkept.params

/-! ### Which commit writes SESSION and CONFIGURED -/

@[simp] theorem Status.updateCycle_session (v : Variant) (x : Status) : (x.updateCycle v).session = x.session := by
  rw [updateCycle_eq]

@[simp] theorem Status.updateCycle_configured (v : Variant) (x : Status) :
    (x.updateCycle v).configured = x.configured := by
  rw [updateCycle_eq]

/-- SESSION is written by the commits of IDENTIFY and LOAD_CAL (R34), CONFIGURED by that of CONFIGURE (R38). -/
theorem commitOf_session_configured {i : Instr} {s t : State} (h : commitOf i s = .next t) :
    (i = .identify ∨ i = .loadCal ∨ t.status.session = s.status.session) ∧
    ((∃ hum m, i = .configure hum m ∧ t.status.configured = true ∧ t.status.lastErr = .ok) ∨
      t.status.configured = s.status.configured) := by
  cases i with
  | identify =>
    simp only [commitOf, commitIdentify] at h
    split at h
    · split at h <;> cases h <;> exact ⟨.inl rfl, .inr rfl⟩
    · cases h
  | configure hum m =>
    cases h
    exact ⟨.inr (.inr rfl), .inl ⟨hum, m, rfl, rfl, rfl⟩⟩
  | loadCal =>
    simp only [commitOf, commitLoadCal] at h
    split at h <;> cases h
    exact ⟨.inr (.inl rfl), .inr rfl⟩
  | measure hum m =>
    simp only [commitOf, commitMeasure] at h
    split at h <;> cases h
    exact ⟨.inr (.inr rfl), .inr rfl⟩
  | compT =>
    cases h
    exact ⟨.inr (.inr (Status.updateCycle_session ..)), .inr (Status.updateCycle_configured ..)⟩
  | compH =>
    cases h
    exact ⟨.inr (.inr (Status.updateCycle_session ..)), .inr (Status.updateCycle_configured ..)⟩
  | compP =>
    cases h
    exact ⟨.inr (.inr (Status.updateCycle_session ..)), .inr (Status.updateCycle_configured ..)⟩
  | cycle hum m =>
    simp only [commitOf, commitCycle] at h
    split at h <;> cases h
    exact ⟨.inr (.inr rfl), .inr rfl⟩

/-- No command checks CONFIGURED (R38). -/
theorem checkCode_configured (p : Params) (i : Instr) (x : Status) (b : Bool) :
    checkCode p i { x with configured := b } = checkCode p i x := by
  have hcycle : cycleCheck i { x with configured := b } = cycleCheck i x := by cases i <;> rfl
  simp only [checkCode, hcycle]

/-- A step that changes CONFIGURED is a reset, which clears it, or the commit of a CONFIGURE, which sets it and completes
with OK (R38). -/
theorem step_configured {s t : State} (hstep : step s = .next t) (hchanged : t.status.configured ≠ s.status.configured) :
    ((nextTurn s.env).1 = .reset ∧ t.status.configured = false) ∨
    ((nextTurn s.env).1 = .sequencer ∧ s.phase = .commit ∧ t.status.configured = true ∧ t.status.lastErr = .ok ∧
      ∃ hum m, decode s.params.variant s.curCmd = .ok (.configure hum m)) := by
  rcases step_cases hstep with ⟨hreset, rfl⟩ | ⟨hturn, hphase, i, hdecode, hcommit⟩ | hkept
  · exact .inl ⟨hreset, rfl⟩
  · rcases (commitOf_session_configured hcommit).2 with ⟨hum, m, rfl, hset, hok⟩ | hsame
    · exact .inr ⟨hturn, hphase, hset, hok, hum, m, hdecode⟩
    · exact absurd hsame hchanged
  · exact absurd hkept.configured hchanged

/-! ## The obligations -/

/-- Settles O18: whoever's turn it is, the turn keeps the invariant of the state it finds. -/
theorem stepKeepsInvariant : Obligations.StepKeepsInvariant := by
  intro s t h hstep
  exact (h.withEnv (nextTurn s.env).2).takeTurn (nextTurn s.env).1 hstep

/-- Settles O15: each conjunct is the register at its offset, read by its kind. -/
theorem registerLayouts : Obligations.RegisterLayouts := by
  intro s session cycle lastErr
  have hsession : s.status.session.bits.toNat = session := by
    simp only [session]
    cases s.status.session <;> rfl
  have hcycle : s.status.cycle.bits.toNat = cycle := by
    simp only [cycle]
    cases s.status.cycle <;> rfl
  have hlastErr : s.status.lastErr.bits.toNat = lastErr := by
    simp only [lastErr]
    cases s.status.lastErr <;> rfl
  have hstatus : (readOffset s 0x08).toNat = _ := (congrArg _ (readOffset_of_regAt regAt_status)).trans s.status.word_toNat
  rw [hsession, hcycle, hlastErr] at hstatus
  refine ⟨hstatus, Events.word_toNat s.events, rfl,
    BitVec.toNat_setWidth_of_le (by decide), BitVec.toNat_setWidth_of_le (by decide),
    BitVec.toNat_setWidth_of_le (by decide),
    rfl, rfl, rfl, rfl, fun hthp => ?_, fun hth => ⟨readOffset_th rfl hth, readOffset_th rfl hth⟩,
    readOffset_toInt_unsigned rfl rfl (.inl rfl), readOffset_toInt_signed rfl rfl (.inl rfl),
    readOffset_toInt_signed rfl rfl (.inl rfl), readOffset_toInt_unsigned rfl rfl (.inl rfl),
    readOffset_toInt_signed rfl rfl (.inl rfl), readOffset_toInt_unsigned rfl rfl (.inl rfl),
    readOffset_toInt_signed rfl rfl (.inl rfl), readOffset_toInt_signed rfl rfl (.inl rfl),
    readOffset_toInt_signed rfl rfl (.inl rfl),
    fun hthp =>
      ⟨readOffset_toInt_unsigned rfl rfl (.inr hthp), readOffset_toInt_signed rfl rfl (.inr hthp),
        readOffset_toInt_signed rfl rfl (.inr hthp), readOffset_toInt_signed rfl rfl (.inr hthp),
        readOffset_toInt_signed rfl rfl (.inr hthp), readOffset_toInt_signed rfl rfl (.inr hthp),
        readOffset_toInt_signed rfl rfl (.inr hthp), readOffset_toInt_signed rfl rfl (.inr hthp),
        readOffset_toInt_signed rfl rfl (.inr hthp)⟩,
    fun hth off hlow hhigh => readOffset_th (regAt_pressureCoefficients off hlow hhigh) hth⟩
  have hadcP : readOffset s 0x18 = s.regs.adcP.zeroExtend 32 := if_pos hthp
  exact ⟨hadcP ▸ BitVec.toNat_setWidth_of_le (by decide), if_pos hthp⟩

/-- Settles O16: the word read at each offset is the packed word of its buffer. -/
theorem rawBytesPacked : Obligations.RawBytesPacked := by
  refine fun s => ⟨fun k hk => ?_, fun k hk => ?_, fun k hk => ?_⟩
  · rw [readOffset_of_regAt (regAt_rawCal (k / 4) (by omega))]
    exact packWord_extractLsb' s.regs.rawCal k
  · rw [readOffset_of_regAt (regAt_rawTail (k / 4) (by omega))]
    exact packWord_extractLsb' s.regs.rawTail k
  · rw [readOffset_of_regAt (regAt_rawMeas (k / 4) (by omega))]
    exact packWord_extractLsb' s.regs.rawMeas k

/-- Settles O20: the two steps that `step_cases` lets write the data registers. -/
theorem dataRegistersChangeAtCommit : Obligations.DataRegistersChangeAtCommit := by
  intro s t hstep hchanged
  rcases step_cases hstep with ⟨hreset, -⟩ | ⟨hturn, hphase, -⟩ | hkept
  · exact .inl hreset
  · exact .inr ⟨hturn, hphase⟩
  · exact absurd hkept.regs hchanged

/-- Settles O24: of the commits, those of IDENTIFY and LOAD_CAL alone write SESSION. -/
theorem sessionChangesAt : Obligations.SessionChangesAt := by
  intro s t hstep hchanged
  rcases step_cases hstep with ⟨hreset, -⟩ | ⟨hturn, hphase, i, hdecode, hcommit⟩ | hkept
  · exact .inl hreset
  · rcases (commitOf_session_configured hcommit).1 with rfl | rfl | hsame
    · exact .inr ⟨hturn, hphase, .inl hdecode⟩
    · exact .inr ⟨hturn, hphase, .inr hdecode⟩
    · exact absurd hsame hchanged
  · exact absurd hkept.session hchanged

/-- Settles O25: the two steps that `step_configured` lets write CONFIGURED, and the check, which does not read it. -/
theorem configuredIsInformational : Obligations.ConfiguredIsInformational := by
  refine ⟨fun hum m s hphase => ⟨_, exec_commit _ hphase, rfl, rfl⟩, fun s t hstep hset hcleared => ?_,
    fun s t hstep hclear hset => ?_, checkCode_configured⟩
  · rcases step_configured hstep (by simp [hset, hcleared]) with ⟨hreset, -⟩ | ⟨-, -, hset', -⟩
    · exact hreset
    · simp [hcleared] at hset'
  · rcases step_configured hstep (by simp [hset, hclear]) with ⟨-, hcleared⟩ | ⟨hturn, hphase, -, hok, hdecode⟩
    · simp [hset] at hcleared
    · exact ⟨hturn, hphase, hok, hdecode⟩

/-- Settles O14: the word of the build, which no step changes. -/
theorem capsReportsParameters : Obligations.CapsReportsParameters := by
  refine ⟨capsWord_fields, by decide, fun s v => ⟨readOffset_caps s, hostWrite_ignored v s (by decide) (by decide)⟩,
    fun s t hstep => ?_⟩
  rw [readOffset_caps, readOffset_caps, step_params hstep]

end Sys2Proof.Machine

/-! # Memory (spec/20_memory.md): what the host's accesses do, and the sensor's memory behind its frames -/

namespace Sys2Proof.Machine

/-! ## The host's step -/

/-- A misaligned access, read or write, is refused (R71). -/
theorem hostStep_misaligned {s : State} {off : BitVec 8} {v : Word} {ops : List HostOp}
    (h : s.env.program = .read off :: ops ∨ s.env.program = .write off v :: ops) (ha : ¬aligned off = true) :
    hostStep s = .refused (.misalignedHostAccess off) := by
  unfold hostStep
  rcases h with hread | hwrite
  · rw [hread]
    exact if_neg ha
  · rw [hwrite]
    exact if_neg ha

/-- While BUSY, a CMD write is an overrun (R140), so EVENTS is all that a host write reaches. -/
theorem hostWrite_of_busy {s : State} (off : BitVec 8) (v : Word) (hbusy : s.status.busy = true) :
    ∃ events, hostWrite off v s = { s with events := events } := by
  rcases hostWrite_cases off v s with ⟨-, hwrite⟩ | ⟨-, hwrite⟩ | ⟨-, -, hwrite⟩
  · exact ⟨_, hwrite.trans (offer_busy v hbusy)⟩
  · exact ⟨_, hwrite⟩
  · exact ⟨s.events, hwrite⟩

/-- What the host's step can change while BUSY, by the access at the head of its program. -/
theorem hostStep_of_busy {s t : State} (hbusy : s.status.busy = true) (hstep : hostStep s = .next t) :
    ∃ events program reads,
      t = { s with events := events, env := { s.env with program := program, reads := reads } } := by
  unfold hostStep at hstep
  split at hstep
  · cases hstep
    exact ⟨_, _, _, rfl⟩
  · split at hstep <;> cases hstep
    exact ⟨_, _, _, rfl⟩
  · next off v _ _ =>
    obtain ⟨events, hwrite⟩ := hostWrite_of_busy off v hbusy
    rw [hwrite] at hstep
    split at hstep <;> cases hstep
    exact ⟨_, _, _, rfl⟩
  · rw [if_pos hbusy] at hstep
    cases hstep
    exact ⟨_, _, _, rfl⟩

/-! ## EVENTS and the unmapped offsets -/

/-- A write to EVENTS clears the bits written 1 (R41), bit by bit: the reserved ones read 0 before and after. -/
theorem Events.clear_word (v : Word) (x : Events) : (x.clear v).word = x.word &&& ~~~v := by
  refine BitVec.eq_of_getLsbD_eq fun i hi => ?_
  rw [BitVec.getLsbD_and, BitVec.getLsbD_not, Events.word_bit, Events.word_bit]
  match i with
  | 0 => rfl
  | 1 => rfl
  | 2 => rfl
  | j + 3 => simp

theorem hostWrite_events (v : Word) (s : State) : hostWrite 0x0C v s = { s with events := s.events.clear v } := by
  simp only [hostWrite, regAt_events]

/-- The offsets no register occupies (R73). -/
theorem regAt_unmapped : ∀ off : BitVec 8, off.toNat % 4 = 0 →
    (0x34 ≤ off.toNat ∧ off.toNat ≤ 0x3C) ∨ (0x88 ≤ off.toNat ∧ off.toNat ≤ 0x8C) ∨ 0xBC ≤ off.toNat →
    regAt off = none := by decide

theorem readOffset_of_unmapped {s : State} {off : BitVec 8} (h : regAt off = none) : readOffset s off = 0 := by
  simp only [readOffset, h]

theorem hostWrite_of_unmapped {off : BitVec 8} (v : Word) (s : State) (h : regAt off = none) : hostWrite off v s = s := by
  simp only [hostWrite, h]

/-! ## The concrete sensor's read frame -/

/-- The control byte of a read frame latches the data registers (R82, R84). -/
theorem Sensor.select_transfer_read {addr : Byte} (free : Byte) (sn : Sensor) (haddr : addr.getLsbD 7 = true) :
    (sn.select.transfer free addr).2 = { sn with frame := .read addr sn.press sn.temp sn.hum } := by
  simp only [Sensor.transfer, Sensor.select, haddr, if_true]

/-- A data transfer of a read frame: the register addressed, with the data registers latched, and the next address. -/
theorem Sensor.transfer_of_read {sn : Sensor} {a : Byte} {p t : BitVec 20} {h : BitVec 16} (free out : Byte)
    (hframe : sn.frame = .read a p t h) :
    sn.transfer free out = ((Sensor.read a { sn with press := p, temp := t, hum := h }).getD free,
      { sn with frame := .read (a + 1) p t h }) := by
  unfold Sensor.transfer
  rw [hframe]

theorem Sensor.endIf_frame (e : Ending) (sn : Sensor) : (sn.endIf e).frame = sn.frame := by
  cases e with
  | none => rfl
  | some counts =>
    obtain ⟨p, t, h⟩ := counts
    obtain ⟨-, hframe, -⟩ := converted_frame p t h sn
    exact hframe

section ReadFrame
variable {addr : Byte} (sn : Sensor) (free : Nat → Byte) (ends : Nat → Ending) (haddr : addr.getLsbD 7 = true)
include haddr

/-- The address has moved on by one a transfer (R82), and the data registers stay those latched, whatever conversions end
inside the frame (R84). -/
theorem Sensor.burst_frame (k : Nat) :
    (sn.burst free ends addr k).frame = .read (addr + BitVec.ofNat 8 k) sn.press sn.temp sn.hum := by
  induction k with
  | zero => simp [Sensor.burst, Sensor.select_transfer_read (free 0) sn haddr]
  | succ j ih =>
    rw [Sensor.burst, Sensor.transfer_of_read _ _ ((Sensor.endIf_frame _ _).trans ih), BitVec.add_assoc,
      BitVec.ofNat_add]
    rfl

/-- Where no conversion ends, the frame changes nothing of the sensor but its position. -/
theorem Sensor.burst_noEnding (k : Nat) :
    sn.burst free (fun _ => none) addr k =
      { sn with frame := .read (addr + BitVec.ofNat 8 k) sn.press sn.temp sn.hum } := by
  induction k with
  | zero => simp [Sensor.burst, Sensor.select_transfer_read (free 0) sn haddr]
  | succ j ih =>
    rw [Sensor.burst, ih, Sensor.endIf, Sensor.transfer_of_read _ _ rfl, BitVec.add_assoc,
      BitVec.ofNat_add]
    rfl

/-- Data transfer `k` sends the register at address + `k` where the sensor has one: what is left to show is that, with the
data registers latched, it holds what it held when the frame began. -/
theorem Sensor.read_eq_burstByte (k : Nat) (hmapped : (sn.read (addr + BitVec.ofNat 8 k)).isSome = true)
    (hheld : Sensor.read (addr + BitVec.ofNat 8 k)
      { (sn.burst free ends addr k).endIf (ends k) with press := sn.press, temp := sn.temp, hum := sn.hum } =
        sn.read (addr + BitVec.ofNat 8 k)) :
    sn.read (addr + BitVec.ofNat 8 k) = some (sn.burstByte free ends addr k) := by
  have hframe := (Sensor.endIf_frame (ends k) _).trans (Sensor.burst_frame sn free ends haddr k)
  obtain ⟨byte, hbyte⟩ := Option.isSome_iff_exists.mp hmapped
  rw [Sensor.burstByte, Sensor.transfer_of_read _ _ hframe, hheld, hbyte, Option.getD_some]

end ReadFrame

/-- The eight data registers hold the pressure, the temperature and the humidity and nothing else of the sensor (R345). -/
theorem Sensor.read_addrMeas (sn other : Sensor) {k : Nat} (hk : k < 8) :
    Sensor.read (addrMeas + BitVec.ofNat 8 k) { other with press := sn.press, temp := sn.temp, hum := sn.hum } =
      sn.read (addrMeas + BitVec.ofNat 8 k) := by
  interval_cases k <;> rfl

theorem Sensor.isSome_read_addrMeas (sn : Sensor) {k : Nat} (hk : k < 8) :
    (sn.read (addrMeas + BitVec.ofNat 8 k)).isSome = true := by
  interval_cases k <;> rfl

/-! ## The concrete sensor's forced mode -/

/-- The forced-mode codes are `01` and `10` (R85). -/
theorem forcedMode_iff (v : Byte) : forcedMode v = true ↔ v.toNat % 4 = 1 ∨ v.toNat % 4 = 2 := by
  revert v
  decide

/-- The oversampling codes of a ctrl_meas byte as numbers: bits 7:5 and 4:2 (R345). -/
theorem conversionOf_eq (v : Byte) (osrsH : BitVec 3) :
    conversionOf v osrsH =
      { osrsT := BitVec.ofNat 3 (v.toNat / 32), osrsP := BitVec.ofNat 3 (v.toNat / 4 % 8), osrsH := osrsH } := by
  have hosrsT : v.extractLsb' 5 3 = BitVec.ofNat 3 (v.toNat / 32) := by
    revert v
    decide
  have hosrsP : v.extractLsb' 2 3 = BitVec.ofNat 3 (v.toNat / 4 % 8) := by
    revert v
    decide
  rw [conversionOf, hosrsT, hosrsP]

theorem Sensor.write_ctrlMeas (v : Byte) (sn : Sensor) : sn.write 0xF4 v = sn.writeCtrlMeas v := rfl

/-- The mode is bits 1:0 of ctrl_meas, which sleep clears (R85). -/
theorem sleepMode_toNat (v : Byte) : (v &&& 0xFC).toNat = v.toNat / 4 * 4 := by
  revert v
  decide

/-- The end of a conversion where one is running (R346). -/
theorem converted_running {sn : Sensor} {c : Conversion} {rest : List Conversion} (p t : BitVec 20) (h : BitVec 16)
    (hm : sn.measuring = c :: rest) :
    sn.converted p t h = { sn with
      press := if c.osrsP = 0 then 0x80000 else p
      temp := if c.osrsT = 0 then 0x80000 else t
      hum := if c.osrsH = 0 then 0x8000 else h
      ctrlMeas := if rest = [] then sn.ctrlMeas &&& 0xFC else sn.ctrlMeas
      measuring := rest } := by
  simp only [Sensor.converted, hm]

/-! ## The obligations -/

/-- Settles O23: what the host's step can change while BUSY. -/
theorem hostCannotDisturbCommand : Obligations.HostCannotDisturbCommand := by
  intro s t turns hschedule hbusy hstep
  rw [step_placed hschedule] at hstep
  obtain ⟨events, program, reads, rfl⟩ :=
    hostStep_of_busy (s := { s with env := { s.env with schedule := turns } }) hbusy hstep
  exact ⟨rfl, rfl⟩

/-- Settles O59: where no conversion ends the sensor keeps every register, and the data registers are latched in any case. -/
theorem sensorBurstRead : Obligations.SensorBurstRead := by
  refine ⟨fun sn addr free n haddr hmapped k hk => ?_, fun sn free ends k hk => ?_⟩
  · refine sn.read_eq_burstByte free _ haddr k (hmapped k hk) ?_
    rw [Sensor.burst_noEnding sn free haddr]
    rfl
  · exact sn.read_eq_burstByte free ends (by decide) k (sn.isSome_read_addrMeas hk) (sn.read_addrMeas _ hk)

/-- Settles O8: a read, a write that neither CMD nor EVENTS takes, and a write to EVENTS. -/
theorem hostAccessSideEffects : Obligations.HostAccessSideEffects := by
  intro s off v ops turns hschedule hoff
  have haligned : aligned off = true := (aligned_iff off).mpr hoff
  refine ⟨fun hprogram => ?_, fun hprogram hcmd hevents => ?_, fun hprogram => ?_⟩
  · rw [step_read hschedule hprogram haligned]
    simp [popProgram, hostRead, readOffset_env, hprogram]
  · rw [step_write hschedule hprogram haligned, hostWrite_ignored _ _ hcmd hevents]
    simp [popProgram, hprogram]
  · rw [step_write hschedule hprogram (by decide), hostWrite_events]
    exact ⟨_, rfl, Events.clear_word v s.events, by simp [popProgram, hprogram]⟩

/-- Settles O9: the host's step refuses either access. -/
theorem misalignedAccessRefused : Obligations.MisalignedAccessRefused := by
  intro s off v ops turns hschedule hoff hprogram
  rw [step_placed hschedule]
  exact hostStep_misaligned hprogram (mt (aligned_iff off).mp hoff)

/-- Settles O10: no row of the register map is in the three ranges. -/
theorem unmappedOffsets : Obligations.UnmappedOffsets := by
  intro s off v haligned hrange
  have hnone := regAt_unmapped off haligned hrange
  exact ⟨readOffset_of_unmapped hnone, hostWrite_of_unmapped v s hnone⟩

/-- Settles O60: the write by its mode, and the end of a conversion by what runs. -/
theorem forcedWriteTriggers : Obligations.ForcedWriteTriggers := by
  refine ⟨fun sn v hmode => ?_, fun sn v hmode => ?_, fun sn p t h c rest hm => ?_, fun sn p t h hm => ?_⟩
  · have hforced : forcedMode v = true := (forcedMode_iff v).mpr hmode
    rw [Sensor.write_ctrlMeas, writeCtrlMeas_eq, if_pos hforced, conversionOf_eq]
  · have hunforced : ¬forcedMode v = true := mt (forcedMode_iff v).mp (by omega)
    rw [Sensor.write_ctrlMeas, writeCtrlMeas_eq, if_neg hunforced]
  · refine ⟨_, converted_running p t h hm, fun hlast => ?_, fun hwaiting => if_neg hwaiting⟩
    rw [if_pos hlast, sleepMode_toNat]
  · exact converted_none p t h hm

end Sys2Proof.Machine

/-! # Encoding (spec/30_encoding.md): the command word, its decoder and encoder, the assembler, and WAIT -/

namespace Sys2Proof.Machine

/-! ## The fields of a word as numbers (R100) -/

theorem opField_toNat (w : Word) : (opField w).toNat = opOf w := by
  simp [opField, opOf]

theorem osrsField_toNat (w : Word) : (osrsField w).toNat = w.toNat / 16 % 8 := by
  simp [osrsField, Nat.shiftRight_eq_div_pow]

theorem mselField_toNat (w : Word) : (mselField w).toNat = mselOf w := by
  simp [mselField, mselOf, Nat.shiftRight_eq_div_pow]

theorem operandField_eq_zero_iff (w : Word) : operandField w = 0 ↔ operandsOf w = 0 := by
  rw [BitVec.toNat_eq]
  simp [operandField, operandsOf, Nat.shiftRight_eq_div_pow]

theorem reservedFields_eq_zero_iff (w : Word) : reservedFields w = 0 ↔ bit7Of w = 0 ∧ highOf w = 0 := by
  have := w.isLt
  rw [BitVec.toNat_eq, reservedFields, toNat_append_add]
  simp only [BitVec.extractLsb'_toNat, Nat.shiftRight_eq_div_pow, BitVec.toNat_zero, BitVec.ofNat_eq_ofNat, highOf, bit7Of]
  omega

theorem commandWord_toNat (op : BitVec 4) (h : BitVec 3) (m : BitVec 2) :
    (commandWord op h m).toNat = op.toNat + h.toNat * 2 ^ 4 + m.toNat * 2 ^ 8 := by
  have hop : (commandWord op h m).toNat = _ := toNat_append_add (0#22 ++ m ++ 0#1 ++ h) op
  rw [hop, toNat_append_add, toNat_append_add, toNat_append_add]
  simp only [BitVec.toNat_ofNat]
  omega

/-! ## The word of an OP and its operands holds them, and no other legal word does -/

@[simp] theorem osrsField_commandWord (op : BitVec 4) (h : BitVec 3) (m : BitVec 2) :
    osrsField (commandWord op h m) = h := by
  refine BitVec.eq_of_toNat_eq ?_
  rw [osrsField_toNat, commandWord_toNat]
  omega

@[simp] theorem mselField_commandWord (op : BitVec 4) (h : BitVec 3) (m : BitVec 2) :
    mselField (commandWord op h m) = m := by
  refine BitVec.eq_of_toNat_eq ?_
  rw [mselField_toNat, mselOf, commandWord_toNat]
  omega

theorem operandField_commandWord_zero (op : BitVec 4) : operandField (commandWord op 0 0) = 0 := by
  rw [operandField_eq_zero_iff, operandsOf, commandWord_toNat]
  simp only [BitVec.ofNat_eq_ofNat, BitVec.toNat_ofNat]
  omega

/-- A word with the reserved bits 0 is made of its other fields. -/
theorem commandWord_of_fields {w : Word} (h : reservedFields w = 0) :
    commandWord (opField w) (osrsField w) (mselField w) = w := by
  obtain ⟨hbit7, hhigh⟩ := (reservedFields_eq_zero_iff w).mp h
  refine BitVec.eq_of_toNat_eq ?_
  rw [commandWord_toNat, opField_toNat, osrsField_toNat, mselField_toNat]
  simp only [bit7Of, highOf, opOf, mselOf] at *
  omega

/-- Bits 9:4 are 0 only where both operands are. -/
theorem operands_eq_zero {w : Word} (h : operandField w = 0) : osrsField w = 0 ∧ mselField w = 0 := by
  rw [operandField_eq_zero_iff, operandsOf] at h
  rw [BitVec.toNat_eq, BitVec.toNat_eq, osrsField_toNat, mselField_toNat, mselOf]
  simp only [BitVec.ofNat_eq_ofNat, BitVec.toNat_ofNat]
  omega

/-- OP and the reserved bits of any instruction's word (R100, R101). -/
theorem encode_fields (i : Instr) : opField (encode i) = opcode i ∧ reservedFields (encode i) = 0 := by
  cases i <;> exact Laws.EncodedFields.commandWord_fields _ _ _

/-! ## The decoder, by the instruction whose OP the word has -/

/-- What the decoder does with a word that has the OP of `i` and the reserved bits 0; the operands of `i` are not read. -/
def decodeOperands (v : Variant) (w : Word) (i : Instr) : Except Illegal Instr :=
  match i with
  | .identify | .loadCal | .compT | .compH => decodePlain w i
  | .compP => if v = .th then .error .pressureCommand else decodePlain w .compP
  | .configure _ _ => decodeSelected v w .configure
  | .measure _ _ => decodeSelected v w .measure
  | .cycle _ _ => decodeSelected v w .cycle

theorem decode_of_opcode {w : Word} {i : Instr} (v : Variant) (hreserved : reservedFields w = 0)
    (hop : opField w = opcode i) : decode v w = decodeOperands v w i := by
  rw [decode, if_neg (not_not_intro hreserved), hop]
  cases i <;> rfl

/-- Every OP is reserved or that of an instruction (R101). -/
theorem opField_cases (w : Word) : (opOf w = 0 ∨ 9 ≤ opOf w) ∨ ∃ i, opField w = opcode i := by
  have hall : ∀ op : BitVec 4, (op.toNat = 0 ∨ 9 ≤ op.toNat) ∨ ∃ i ∈ [Instr.identify, .configure 0 .temp, .loadCal,
      .measure 0 .temp, .compT, .compH, .compP, .cycle 0 .temp], op = opcode i := by decide
  rw [← opField_toNat]
  exact (hall (opField w)).imp id fun ⟨i, _, hop⟩ => ⟨i, hop⟩

theorem decode_reservedBits {w : Word} (v : Variant) (h : reservedFields w ≠ 0) : decode v w = .error .reservedBits :=
  if_pos h

theorem decode_reservedOpcode {w : Word} (v : Variant) (hreserved : reservedFields w = 0) (h : opOf w = 0 ∨ 9 ≤ opOf w) :
    decode v w = .error .reservedOpcode := by
  rw [decode, if_neg (not_not_intro hreserved), opField_toNat]
  rcases h with hzero | hnine
  · rw [hzero]
    rfl
  · obtain ⟨k, hk⟩ := Nat.exists_eq_add_of_le' hnine
    rw [hk]
    rfl

/-- A word that decodes has the reserved bits 0 and the OP of an instruction. -/
theorem decode_ok {v : Variant} {w : Word} {i : Instr} (h : decode v w = .ok i) :
    reservedFields w = 0 ∧ ∃ j, opField w = opcode j ∧ decodeOperands v w j = .ok i := by
  by_cases hreserved : reservedFields w = 0
  · rcases opField_cases w with hop | ⟨j, hop⟩
    · rw [decode_reservedOpcode v hreserved hop] at h
      cases h
    · exact ⟨hreserved, j, hop, (decode_of_opcode v hreserved hop).symm.trans h⟩
  · rw [decode_reservedBits v hreserved] at h
    cases h

/-! ## The operands -/

theorem decodePlain_eq_ok_iff {w : Word} {i j : Instr} : decodePlain w i = .ok j ↔ operandField w = 0 ∧ i = j := by
  unfold decodePlain
  split <;> simp_all

/-- MSEL and its selector (R110). -/
theorem decodeSel_eq_some_iff {b : BitVec 2} {m : MeasSel} : decodeSel b = some m ↔ b = encodeSel m := by
  revert b
  cases m <;> decide

theorem decodeSelected_eq_ok_iff {v : Variant} {w : Word} {mk : BitVec 3 → MeasSel → Instr} {j : Instr} :
    decodeSelected v w mk = .ok j ↔ ∃ m, mselField w = encodeSel m ∧ m.wellFormed v = true ∧ mk (osrsField w) m = j := by
  simp only [← decodeSel_eq_some_iff, decodeSelected]
  cases decodeSel (mselField w) with
  | none => simp
  | some m => by_cases hm : m.wellFormed v = true <;> simp [hm]

/-! ## Decoding a word of the encoder (R103, R110) -/

theorem decodePlain_commandWord (op : BitVec 4) (i : Instr) : decodePlain (commandWord op 0 0) i = .ok i :=
  decodePlain_eq_ok_iff.mpr ⟨operandField_commandWord_zero op, rfl⟩

theorem decodeSelected_commandWord {v : Variant} {m : MeasSel} (op : BitVec 4) (h : BitVec 3)
    (mk : BitVec 3 → MeasSel → Instr) (hm : m.wellFormed v = true) :
    decodeSelected v (commandWord op h (encodeSel m)) mk = .ok (mk h m) :=
  decodeSelected_eq_ok_iff.mpr ⟨m, mselField_commandWord _ _ _, hm, by rw [osrsField_commandWord]⟩

theorem decodeOperands_encode {v : Variant} {i : Instr} (h : i.wellFormed v = true) :
    decodeOperands v (encode i) i = .ok i := by
  cases i with
  | identify => exact decodePlain_commandWord _ _
  | loadCal => exact decodePlain_commandWord _ _
  | compT => exact decodePlain_commandWord _ _
  | compH => exact decodePlain_commandWord _ _
  | compP =>
    cases v with
    | th => cases h
    | thp => exact decodePlain_commandWord (opcode .compP) _
  | configure hum m => exact decodeSelected_commandWord _ _ _ h
  | measure hum m => exact decodeSelected_commandWord _ _ _ h
  | cycle hum m => exact decodeSelected_commandWord _ _ _ h

/-! ## Encoding what a word decodes to -/

theorem encode_of_decodePlain {w : Word} {i j : Instr} (hreserved : reservedFields w = 0) (hop : opField w = opcode i)
    (hencode : encode i = commandWord (opcode i) 0 0) (h : decodePlain w i = .ok j) : encode j = w := by
  obtain ⟨hoperands, rfl⟩ := decodePlain_eq_ok_iff.mp h
  obtain ⟨hosrs, hmsel⟩ := operands_eq_zero hoperands
  rw [hencode, ← hop, ← hosrs, ← hmsel, commandWord_of_fields hreserved]

theorem encode_of_decodeSelected {v : Variant} {w : Word} {op : BitVec 4} {mk : BitVec 3 → MeasSel → Instr} {j : Instr}
    (hreserved : reservedFields w = 0) (hop : opField w = op)
    (hencode : ∀ hum m, encode (mk hum m) = commandWord op hum (encodeSel m)) (h : decodeSelected v w mk = .ok j) :
    encode j = w := by
  obtain ⟨m, hmsel, -, rfl⟩ := decodeSelected_eq_ok_iff.mp h
  rw [hencode, ← hop, ← hmsel, commandWord_of_fields hreserved]

theorem encode_of_decodeOperands {v : Variant} {w : Word} {i j : Instr} (hreserved : reservedFields w = 0)
    (hop : opField w = opcode j) (h : decodeOperands v w j = .ok i) : encode i = w := by
  cases j with
  | identify => exact encode_of_decodePlain hreserved hop rfl h
  | loadCal => exact encode_of_decodePlain hreserved hop rfl h
  | compT => exact encode_of_decodePlain hreserved hop rfl h
  | compH => exact encode_of_decodePlain hreserved hop rfl h
  | compP =>
    cases v with
    | th => cases h
    | thp => exact encode_of_decodePlain hreserved hop rfl h
  | configure => exact encode_of_decodeSelected hreserved hop (fun _ _ => rfl) h
  | measure => exact encode_of_decodeSelected hreserved hop (fun _ _ => rfl) h
  | cycle => exact encode_of_decodeSelected hreserved hop (fun _ _ => rfl) h

/-! ## Illegal words (R104) -/

theorem exists_decodePlain_ok (w : Word) (i : Instr) : (∃ j, decodePlain w i = .ok j) ↔ operandsOf w = 0 := by
  simp only [decodePlain_eq_ok_iff, operandField_eq_zero_iff, exists_and_left, exists_eq', and_true]

theorem exists_decodeSelected_ok (v : Variant) (w : Word) (mk : BitVec 3 → MeasSel → Instr) :
    (∃ j, decodeSelected v w mk = .ok j) ↔ ¬(mselOf w = 3 ∨ v = .th ∧ mselOf w = 2) := by
  have hsel : ∀ b : BitVec 2, (∃ m ∈ [MeasSel.temp, .tempHum, .tempPress], b = encodeSel m ∧ m.wellFormed v = true) ↔
      ¬(b.toNat = 3 ∨ v = .th ∧ b.toNat = 2) := by
    cases v <;> decide
  rw [← mselField_toNat, ← hsel]
  simp only [decodeSelected_eq_ok_iff]
  constructor
  · rintro ⟨_, m, hmsel, hm, -⟩
    exact ⟨m, by cases m <;> decide, hmsel, hm⟩
  · rintro ⟨m, -, hmsel, hm⟩
    exact ⟨_, m, hmsel, hm, rfl⟩

/-- Item 3. -/
theorem illegalWord_iff_plain {w : Word} (v : Variant) (i : Instr) (hreserved : reservedFields w = 0)
    (hop : opOf w ∈ [1, 3, 5, 6]) : IllegalWord v w ↔ ¬∃ j, decodePlain w i = .ok j := by
  obtain ⟨hbit7, hhigh⟩ := (reservedFields_eq_zero_iff w).mp hreserved
  rw [exists_decodePlain_ok]
  simp only [List.mem_cons, List.not_mem_nil, or_false] at hop
  obtain hop | hop | hop | hop := hop <;> simp [IllegalWord, hbit7, hhigh, hop]

/-- Items 4 and 5. -/
theorem illegalWord_iff_selected {w : Word} (v : Variant) (mk : BitVec 3 → MeasSel → Instr)
    (hreserved : reservedFields w = 0) (hop : opOf w ∈ [2, 4, 8]) :
    IllegalWord v w ↔ ¬∃ j, decodeSelected v w mk = .ok j := by
  obtain ⟨hbit7, hhigh⟩ := (reservedFields_eq_zero_iff w).mp hreserved
  rw [exists_decodeSelected_ok, not_not]
  simp only [List.mem_cons, List.not_mem_nil, or_false] at hop
  obtain hop | hop | hop := hop <;> simp [IllegalWord, hbit7, hhigh, hop]

/-- Items 3 and 6. -/
theorem illegalWord_iff_compP {w : Word} (v : Variant) (hreserved : reservedFields w = 0) (hop : opOf w = 7) :
    IllegalWord v w ↔ ¬∃ j, decodeOperands v w .compP = .ok j := by
  obtain ⟨hbit7, hhigh⟩ := (reservedFields_eq_zero_iff w).mp hreserved
  cases v with
  | th => exact iff_of_true (.inr (.inr (.inr (.inr (.inr ⟨rfl, hop⟩))))) (by simp [decodeOperands])
  | thp => simp [decodeOperands, exists_decodePlain_ok, IllegalWord, hbit7, hhigh, hop]

/-- Items 3 to 6: with the reserved bits 0 and the OP of an instruction, a word is illegal by its operands or by VARIANT. -/
theorem illegalWord_iff_operands {w : Word} {i : Instr} (v : Variant) (hreserved : reservedFields w = 0)
    (hop : opField w = opcode i) : IllegalWord v w ↔ ¬∃ j, decodeOperands v w i = .ok j := by
  have hopOf : opOf w = (opcode i).toNat := by rw [← opField_toNat, hop]
  cases i with
  | identify => exact illegalWord_iff_plain v _ hreserved (by simp [hopOf, opcode])
  | loadCal => exact illegalWord_iff_plain v _ hreserved (by simp [hopOf, opcode])
  | compT => exact illegalWord_iff_plain v _ hreserved (by simp [hopOf, opcode])
  | compH => exact illegalWord_iff_plain v _ hreserved (by simp [hopOf, opcode])
  | compP => exact illegalWord_iff_compP v hreserved hopOf
  | configure => exact illegalWord_iff_selected v _ hreserved (by simp [hopOf, opcode])
  | measure => exact illegalWord_iff_selected v _ hreserved (by simp [hopOf, opcode])
  | cycle => exact illegalWord_iff_selected v _ hreserved (by simp [hopOf, opcode])

theorem illegalWord_iff (v : Variant) (w : Word) : IllegalWord v w ↔ ¬∃ i, decode v w = .ok i := by
  by_cases hreserved : reservedFields w = 0
  · rcases opField_cases w with hop | ⟨i, hop⟩
    · exact iff_of_true (.inl hop) (by simp [decode_reservedOpcode v hreserved hop])
    · rw [decode_of_opcode v hreserved hop]
      exact illegalWord_iff_operands v hreserved hop
  · refine iff_of_true (.inr (.inl ?_)) (by simp [decode_reservedBits v hreserved])
    rw [reservedFields_eq_zero_iff, bit7Of] at hreserved
    rw [bit7Of]
    omega

/-! ## The assembler (R130) -/

theorem assembleOperands_eq {mk : BitVec 3 → MeasSel → Instr} {h m n : Nat} (hh : h < 8)
    (hm : (m, n) ∈ [(0x21, 0), (0x22, 1), (0x25, 2)]) :
    ∃ sel, assembleOperands mk h m = some (mk (BitVec.ofNat 3 h) sel) ∧ (encodeSel sel).toNat = n := by
  simp only [assembleOperands, if_pos hh]
  simp only [List.mem_cons, Prod.mk.injEq, List.not_mem_nil, or_false] at hm
  obtain ⟨rfl, rfl⟩ | ⟨rfl, rfl⟩ | ⟨rfl, rfl⟩ := hm
  · exact ⟨.temp, rfl, rfl⟩
  · exact ⟨.tempHum, rfl, rfl⟩
  · exact ⟨.tempPress, rfl, rfl⟩

/-- The word a command with operands spells. -/
theorem assembledWord {op : BitVec 4} {mk : BitVec 3 → MeasSel → Instr}
    (hencode : ∀ hum m, encode (mk hum m) = commandWord op hum (encodeSel m)) {h m n : Nat} (hh : h < 8)
    (hm : (m, n) ∈ [(0x21, 0), (0x22, 1), (0x25, 2)]) :
    (assembleOperands mk h m).map (fun i => (encode i).toNat) = some (op.toNat + h * 2 ^ 4 + n * 2 ^ 8) := by
  obtain ⟨sel, hsome, hsel⟩ := assembleOperands_eq (mk := mk) hh hm
  rw [hsome, Option.map_some, hencode, commandWord_toNat, hsel, BitVec.toNat_ofNat, Nat.mod_eq_of_lt hh]

theorem assembleOperands_eq_none {h m : Nat} (mk : BitVec 3 → MeasSel → Instr)
    (hbad : 8 ≤ h ∨ m ∉ [0x21, 0x22, 0x25]) : assembleOperands mk h m = none := by
  unfold assembleOperands
  split
  · have hm : m ∉ [0x21, 0x22, 0x25] := hbad.resolve_left (by omega)
    simp_all [selOfByte]
  · rfl

/-! ## WAIT (R131) -/

theorem hostStep_wait {s : State} {ops : List HostOp} (h : s.env.program = .wait :: ops) :
    hostStep s = .next (if s.status.busy then hostRead statusOffset s else popProgram (hostRead statusOffset s)) := by
  rw [hostStep, h]
  cases s.status.busy <;> rfl

/-- The host's turn with WAIT at the head of its program. -/
theorem step_wait {s : State} {ops : List HostOp} {turns : List Turn} (hs : s.env.schedule = .host :: turns)
    (hp : s.env.program = .wait :: ops) :
    let polled := hostRead statusOffset { s with env := { s.env with schedule := turns } }
    step s = .next (if s.status.busy then polled else popProgram polled) := by
  rw [step_placed hs]
  exact hostStep_wait (ops := ops) hp

theorem hostRead_status_eq (s : State) :
    hostRead statusOffset s = { s with env := { s.env with reads := s.env.reads ++ [(0x08, s.status.word)] } } := by
  rw [hostRead, statusOffset, readOffset_of_regAt regAt_status]
  rfl

/-! ## The obligations -/

/-- Settles O1: the word of an instruction has its OP, and the decoder finds its operands where the encoder put them. -/
theorem decodeOfEncode : Obligations.DecodeOfEncode := by
  intro v i hi
  obtain ⟨hop, hreserved⟩ := encode_fields i
  rw [decode_of_opcode v hreserved hop, decodeOperands_encode hi]

/-- Settles O2: a word that decodes is made of the fields the decoder has read. -/
theorem encodeOfDecode : Obligations.EncodeOfDecode := by
  intro v w i h
  obtain ⟨hreserved, j, hop, hoperands⟩ := decode_ok h
  exact ⟨encode_of_decodeOperands hreserved hop hoperands, decode_wellFormed h⟩

/-- Settles O3: the six items by OP, and the check step of a word that decodes to no instruction. -/
theorem illegalWordsComplete : Obligations.IllegalWordsComplete := by
  refine ⟨illegalWord_iff, fun s hphase hillegal => ?_⟩
  cases hdecode : decode s.params.variant s.curCmd with
  | ok i => exact absurd ⟨i, hdecode⟩ ((illegalWord_iff _ _).mp hillegal)
  | error e =>
    rw [sequencerStep_illegal hphase hdecode]
    simp [checkIllegal, complete, Status.complete, Events.complete]

/-- Settles O4: the word of each command with operands, the assembly errors, and the lines without a free operand. -/
theorem assembledWords : Obligations.AssembledWords :=
  ⟨rfl, rfl, rfl, rfl, rfl,
    fun _ _ _ hh hm => ⟨assembledWord (op := 2) (mk := .configure) (fun _ _ => rfl) hh hm,
      assembledWord (op := 4) (mk := .measure) (fun _ _ => rfl) hh hm,
      assembledWord (op := 8) (mk := .cycle) (fun _ _ => rfl) hh hm⟩,
    fun _ _ hbad => ⟨assembleOperands_eq_none _ hbad, assembleOperands_eq_none _ hbad, assembleOperands_eq_none _ hbad⟩,
    rfl, rfl⟩

/-- Settles O5: the decoder evaluated on the eight words. -/
theorem wordsDecodeAsWritten : Obligations.WordsDecodeAsWritten := by
  unfold Obligations.WordsDecodeAsWritten
  decide

/-- Settles O11: bit 4 of the STATUS read is BUSY, by which WAIT stays or is taken from the program. -/
theorem waitPollsStatus : Obligations.WaitPollsStatus := by
  intro s ops turns hschedule hprogram
  rw [step_wait hschedule hprogram, hostRead_status_eq, Status.word_busy]
  cases s.status.busy with
  | true => simp [hprogram]
  | false => simp [popProgram, hprogram]

end Sys2Proof.Machine

/-! # Register protocol (spec/40_register_protocol.md): the lifecycle of a command, and what each protocol command commits -/

namespace Sys2Proof.Machine

/-! ## Completion and the actions of a command, written out -/

/-- `Complete(OK)` (R327): ERR stays as it was. -/
theorem complete_ok (s : State) :
    complete .ok s = { s with
      status := { s.status with lastErr := .ok, busy := false }
      events := { s.events with done := true }
      phase := .idle, script := [], ev := 0, rx := [] } := by
  simp [complete, Status.complete, Events.complete]

/-- `Complete(code)` with any other code (R327): ERR is set. -/
theorem complete_error {c : Code} (s : State) (hc : c ≠ .ok) :
    complete c s = { s with
      status := { s.status with lastErr := c, busy := false }
      events := { s.events with done := true, err := true }
      phase := .idle, script := [], ev := 0, rx := [] } := by
  simp [complete, Status.complete, Events.complete, hc]

theorem beginOf_eq (i : Instr) (x : Status) : beginOf i x = if beginsCycle i then x.beginCycle else x := by
  unfold beginOf
  split <;> rfl

theorem abortOf_eq (i : Instr) (x : Status) :
    abortOf i x = { x with cycle := if beginsCycle i then .idle else x.cycle } := by
  unfold abortOf
  split <;> rfl

/-! ## The offer and the check -/

/-- The offset of CMD: a host write there offers the word. -/
theorem hostWrite_cmd (w : Word) (s : State) : hostWrite 0x04 w s = offer w s := by
  simp only [hostWrite, regAt_cmd]

/-- In FAULTED every command the build has is forbidden, but an IDENTIFY that may be retried (R323). -/
theorem checkCode_faulted {p : Params} {i : Instr} {x : Status} (hx : x.session = .faulted)
    (hi : i.wellFormed p.variant = true) (hretry : ¬(i = .identify ∧ p.idRetry = true)) :
    checkCode p i x = .badState := by
  have hsession : sessionCheck p i x.session = .badState := by
    rw [hx]
    cases i with
    | identify => exact if_neg fun hp => hretry ⟨rfl, hp⟩
    | configure _ _ | loadCal | measure _ _ | compT | compH | compP | cycle _ _ => rfl
  simp only [checkCode, hi, if_true, hsession]

/-! ## A run step by its event -/

theorem runStep_csAssert {s : State} (action : Status → Status) (h : s.script[s.ev]? = some .csAssert) :
    runStep action s = .next (advance { s with cs := true, env := s.env.select }) := by
  simp only [runStep, h]

theorem runStep_csDeassert {s : State} (action : Status → Status) (h : s.script[s.ev]? = some .csDeassert) :
    runStep action s = .next (advance { s with cs := false, env := s.env.release }) := by
  simp only [runStep, h]

theorem runStep_xfer {s : State} {out : Byte} (action : Status → Status) (h : s.script[s.ev]? = some (.xfer out)) :
    runStep action s = .next (transferStep action out s) := by
  simp only [runStep, h]

/-- What a run step that answers `t` has done. -/
theorem runStep_inv {s t : State} {action : Status → Status} (h : runStep action s = .next t) :
    t = advance { s with cs := true, env := s.env.select } ∨ t = advance { s with cs := false, env := s.env.release } ∨
      ∃ out, t = transferStep action out s := by
  unfold runStep at h
  split at h <;> cases h
  · exact .inl rfl
  · exact .inr (.inl rfl)
  · exact .inr (.inr ⟨_, rfl⟩)

/-! ## A transfer by its answer -/

theorem transfer_placed_sensor {x : Env} {b : Byte} {rest : List Answer} {sn : Sensor} (out : Byte)
    (h : x.answers = .byte b :: rest) (hs : x.sensor = some sn) :
    x.transfer out = (.byte b, { x with
      answers := rest
      sensor := some (sn.transfer (Config.freeByte x.draws) out).2
      draws := x.draws + 1 }) := by
  simp only [Env.transfer, Env.clockSensor, h, hs]

/-- A drawn answer acts as the same answer placed would. -/
theorem transfer_drawn {x : Env} (out : Byte) (h : x.answers = []) (hs : x.sensor = none) :
    Env.transfer out { x with answers := [Config.freeAnswer x.draws], draws := x.draws + 1 } = x.transfer out := by
  have hplaced : Env.transfer out { x with answers := [Config.freeAnswer x.draws], draws := x.draws + 1 } =
      (Config.freeAnswer x.draws, { x with answers := [], draws := x.draws + 1 }) := transfer_placed out rfl hs
  rw [hplaced]
  simp only [Env.transfer, h, hs]

/-- A transfer answered with a byte. -/
theorem transferStep_byte {s : State} {out b : Byte} {env : Env} (action : Status → Status)
    (h : s.env.transfer out = (.byte b, env)) :
    transferStep action out s = advance { s with rx := s.rx ++ [b], env := env.perform (.xfer out) } := by
  simp only [transferStep, h]

/-- A transfer that fails: a fault, or no answer where XFER_TIMEOUT_EN is 1. -/
theorem transferStep_failed {s : State} {out : Byte} {a : Answer} {env : Env} (action : Status → Status)
    (h : s.env.transfer out = (a, env)) (ha : a = .fault ∨ (a = .noAnswer ∧ s.params.xferTimeoutEn = true)) :
    transferStep action out s = abort action .transport { s with env := env.perform (.xfer out) } := by
  rcases ha with rfl | ⟨rfl, htimeout⟩
  · simp only [transferStep, h]
  · simp only [transferStep, h, htimeout, if_true]

/-- A transfer not answered where XFER_TIMEOUT_EN is 0. -/
theorem transferStep_waits {s : State} {out : Byte} {env : Env} (action : Status → Status)
    (h : s.env.transfer out = (.noAnswer, env)) (htimeout : s.params.xferTimeoutEn = false) :
    transferStep action out s = { s with env := env } := by
  simp [transferStep, h, htimeout]

/-- A transfer step reads of `env` no more than the transport's answer. -/
theorem transferStep_env {s : State} {out : Byte} {env : Env} (action : Status → Status)
    (h : env.transfer out = s.env.transfer out) :
    transferStep action out { s with env := env } = transferStep action out s := by
  simp only [transferStep, h]

/-! ## A command whose transfers are answered -/

/-- The state after an event that succeeds with no sensor attached: `bytes` is the byte a transfer receives, and empty for
chip select; `rest` are the answers still placed. -/
def State.afterEvent (s : State) (e : PortEvent) (bytes : List Byte) (rest : List Answer) : State :=
  advance { s with
    rx := s.rx ++ bytes
    cs := e.csNext s.cs
    env := { s.env with port := s.env.port ++ [e], answers := rest } }

theorem runStep_answered {s : State} {e : PortEvent} {bytes : List Byte} {rest : List Answer}
    (action : Status → Status) (he : s.script[s.ev]? = some e) (hsensor : s.env.sensor = none)
    (hbytes : bytes.length = e.isTransfer.toNat) (hanswers : s.env.answers = bytes.map .byte ++ rest) :
    runStep action s = .next (s.afterEvent e bytes rest) := by
  cases e with
  | csAssert =>
    obtain rfl := List.length_eq_zero_iff.mp hbytes
    obtain rfl : s.env.answers = rest := hanswers
    rw [runStep_csAssert action he]
    simp [State.afterEvent, Env.select, Env.perform, PortEvent.csNext, hsensor]
  | csDeassert =>
    obtain rfl := List.length_eq_zero_iff.mp hbytes
    obtain rfl : s.env.answers = rest := hanswers
    rw [runStep_csDeassert action he]
    simp [State.afterEvent, Env.release, Env.perform, PortEvent.csNext, hsensor]
  | xfer out =>
    obtain ⟨b, rfl⟩ := List.length_eq_one_iff.mp hbytes
    rw [runStep_xfer action he, transferStep_byte action (transfer_placed out hanswers hsensor)]
    rfl

/-- The sequencer stands before the events `todo` of the command `i`, with its turns and an answer for every transfer among
them placed, and no sensor attached. -/
structure State.Answered (s : State) (i : Instr) (todo : List PortEvent) (bytes : List Byte) (rest : List Answer)
    (turns : List Turn) : Prop where
  decoded  : decode s.params.variant s.curCmd = .ok i
  position : s.ev + todo.length = s.script.length
  events   : s.script.drop s.ev = todo
  phase    : s.phase = if todo = [] then .commit else .run
  sensor   : s.env.sensor = none
  received : bytes.length = transfersIn todo
  answers  : s.env.answers = bytes.map .byte ++ rest
  schedule : s.env.schedule = List.replicate todo.length .sequencer ++ turns

/-- The state when those events have been performed. -/
def State.afterEvents (s : State) (todo : List PortEvent) (bytes : List Byte) (rest : List Answer) (turns : List Turn) :
    State :=
  { s with
    phase := .commit
    ev := s.script.length
    rx := s.rx ++ bytes
    cs := todo.foldl PortEvent.csNext s.cs
    env := { s.env with port := s.env.port ++ todo, answers := rest, schedule := turns } }

/-- The bytes the events receive, parted into that of the first and those of the others. -/
theorem received_cons {e : PortEvent} {todo : List PortEvent} {bytes : List Byte}
    (h : bytes.length = transfersIn (e :: todo)) :
    ∃ now later, bytes = now ++ later ∧ now.length = e.isTransfer.toNat ∧ later.length = transfersIn todo := by
  have hlength : bytes.length = e.isTransfer.toNat + transfersIn todo := by
    rw [h]
    cases e <;> simp [transfersIn, PortEvent.isTransfer, List.countP_cons, Nat.add_comm]
  exact ⟨_, _, (List.take_append_drop e.isTransfer.toNat bytes).symm, by simp [hlength], by simp [hlength]⟩

/-- The state with another interleaving to come. -/
def State.withSchedule (s : State) (turns : List Turn) : State := { s with env := { s.env with schedule := turns } }

/-- At the sequencer's turn a word that decodes takes one step of `exec`, with that turn taken (R311). -/
theorem step_decoded {s : State} {i : Instr} {turns : List Turn} (hschedule : s.env.schedule = .sequencer :: turns)
    (hphase : s.phase ≠ .idle) (hdecode : decode s.params.variant s.curCmd = .ok i) :
    step s = exec i (s.withSchedule turns) :=
  (step_placed hschedule).trans (sequencerStep_decoded hphase hdecode)

/-- One step of the machine performs the first of the events and leaves the others answered. -/
theorem State.Answered.step {s : State} {i : Instr} {e : PortEvent} {todo : List PortEvent} {bytes : List Byte}
    {rest : List Answer} {turns : List Turn} (h : s.Answered i (e :: todo) bytes rest turns) :
    ∃ t later, step s = .next t ∧ t.Answered i todo later rest turns ∧
      t.afterEvents todo later rest turns = s.afterEvents (e :: todo) bytes rest turns := by
  obtain ⟨hdecoded, hposition, hevents, hphase, hsensor, hreceived, hanswers, hschedule⟩ := h
  obtain ⟨now, later, rfl, hnow, hlater⟩ := received_cons hreceived
  have hrun : s.phase = .run := hphase
  have he : s.script[s.ev]? = some e := by rw [← List.head?_drop, hevents, List.head?_cons]
  rw [List.map_append, List.append_assoc] at hanswers
  have hstep := (step_decoded hschedule (by simp [hrun]) hdecoded).trans (exec_run (s := s.withSchedule _) i hrun)
  refine ⟨_, later, hstep.trans (runStep_answered (s := s.withSchedule _) _ he hsensor hnow hanswers), ?_, ?_⟩
  · have hlast : s.ev + 1 = s.script.length ↔ todo = [] := by
      rw [← hposition, List.length_cons, ← List.length_eq_zero_iff]
      omega
    exact
      { decoded := hdecoded
        position := (Nat.add_right_comm s.ev 1 todo.length).trans hposition
        events := by
          have htail : s.script.drop (s.ev + 1) = todo := by rw [← List.tail_drop, hevents, List.tail_cons]
          exact htail
        phase := by simp [State.afterEvent, State.withSchedule, hlast, hrun]
        sensor := hsensor
        received := hlater
        answers := rfl
        schedule := rfl }
  · simp [State.afterEvents, State.afterEvent, State.withSchedule, advance]

theorem run_of_step {s t : State} (n : Nat) (h : step s = .next t) :
    Host.Core.run core (n + 1) s = Host.Core.run core n t := by
  have hcore : core.step s = Host.Outcome.next t := h
  simp only [Host.Core.run, hcore]

/-- By induction on the events still to come: a step each, and the command stands at its commit step. -/
theorem State.Answered.run {i : Instr} {rest : List Answer} {turns : List Turn} (todo : List PortEvent) :
    ∀ {s : State} {bytes : List Byte}, s.Answered i todo bytes rest turns →
      Host.Core.run core todo.length s = Host.Outcome.next (σ := State) (s.afterEvents todo bytes rest turns) := by
  induction todo with
  | nil =>
    intro s bytes h
    obtain ⟨-, hposition, -, hphase, -, hreceived, hanswers, hschedule⟩ := h
    obtain rfl := List.length_eq_zero_iff.mp hreceived
    have hev : s.ev = s.script.length := hposition
    have hcommit : s.phase = .commit := hphase
    obtain rfl : s.env.answers = rest := hanswers
    obtain rfl : s.env.schedule = turns := hschedule
    have hafter : s.afterEvents [] [] s.env.answers s.env.schedule = s := by
      simp [State.afterEvents, ← hev, ← hcommit]
    exact congrArg Host.Outcome.next hafter.symm
  | cons e todo ih =>
    intro s bytes h
    obtain ⟨t, later, hstep, ht, hafter⟩ := h.step
    rw [← hafter, ← ih ht]
    exact run_of_step _ hstep

/-- A check reads nothing of the interleaving. -/
theorem checkStep_passed_withSchedule {s : State} {i : Instr} (begin : Status → Status) (turns : List Turn)
    (h : checkCode s.params i s.status = .ok) :
    checkStep i begin (s.withSchedule turns) =
      { s.withSchedule turns with
        status := begin s.status
        script := scriptOf s.params i
        ev := 0
        rx := []
        phase := if scriptOf s.params i = [] then .commit else .run } :=
  checkStep_passed begin h

/-- The check step of a command that passes its check leaves its script answered. -/
theorem checkStep_answered {s : State} {i : Instr} {bytes : List Byte} {rest : List Answer} (turns : List Turn)
    (hdecode : decode s.params.variant s.curCmd = .ok i) (hcode : checkCode s.params i s.status = .ok)
    (hsensor : s.env.sensor = none) (hbytes : bytes.length = transfersOf s.params i)
    (hanswers : s.env.answers = bytes.map .byte ++ rest) :
    (checkStep i (beginOf i)
      (s.withSchedule (List.replicate (scriptOf s.params i).length .sequencer ++ turns))).Answered
        i (scriptOf s.params i) bytes rest turns := by
  rw [checkStep_passed_withSchedule _ _ hcode]
  exact
    { decoded := hdecode
      position := Nat.zero_add _
      events := rfl
      phase := rfl
      sensor := hsensor
      received := hbytes.trans (transfersIn_scriptOf _ i).symm
      answers := hanswers
      schedule := rfl }

/-! ## What the steps of a command leave unchanged -/

/-- `t` holds the command word and OVERRUN of `s`; where `i` begins no cycle, STATUS too but for what completion writes. -/
structure State.CommandKept (s : State) (i : Instr) (t : State) : Prop where
  curCmd  : t.curCmd = s.curCmd
  overrun : t.events.overrun = s.events.overrun
  status  : beginsCycle i = false → t.status = { s.status with lastErr := t.status.lastErr, busy := t.status.busy }

theorem checkStep_commandKept (i : Instr) (s : State) : s.CommandKept i (checkStep i (beginOf i) s) := by
  by_cases h : checkCode s.params i s.status = .ok
  · rw [checkStep_passed _ h]
    exact ⟨rfl, rfl, fun hi => by simp [beginOf_eq, hi]⟩
  · rw [checkStep_refused _ h]
    exact ⟨rfl, rfl, fun _ => rfl⟩

theorem transferStep_commandKept (i : Instr) (out : Byte) (s : State) :
    s.CommandKept i (transferStep (abortOf i) out s) := by
  rcases transferStep_cases (abortOf i) out s with ⟨b, env, -, hstep⟩ | ⟨env, -, hstep⟩ | ⟨env, -, -, hstep⟩
  all_goals rw [hstep]
  · exact ⟨rfl, rfl, fun _ => rfl⟩
  · rw [abort_eq]
    exact ⟨rfl, rfl, fun hi => by simp [abortOf_eq, hi, Status.complete]⟩
  · exact ⟨rfl, rfl, fun _ => rfl⟩

theorem runStep_commandKept {s t : State} {i : Instr} (h : runStep (abortOf i) s = .next t) : s.CommandKept i t := by
  rcases runStep_inv h with rfl | rfl | ⟨out, rfl⟩
  · exact ⟨rfl, rfl, fun _ => rfl⟩
  · exact ⟨rfl, rfl, fun _ => rfl⟩
  · exact transferStep_commandKept i out s

/-- A run step that does not complete its command leaves STATUS and EVENTS. -/
theorem runStep_open {s t : State} {action : Status → Status} (h : runStep action s = .next t) (ht : t.phase ≠ .idle) :
    t.status = s.status ∧ t.events = s.events := by
  rcases runStep_inv h with rfl | rfl | ⟨out, rfl⟩
  · exact ⟨rfl, rfl⟩
  · exact ⟨rfl, rfl⟩
  · rcases transferStep_cases action out s with ⟨b, env, -, hbyte⟩ | ⟨env, -, habort⟩ | ⟨env, -, -, hwait⟩
    · rw [hbyte]
      exact ⟨rfl, rfl⟩
    · rw [habort] at ht
      exact absurd rfl ht
    · rw [hwait]
      exact ⟨rfl, rfl⟩

/-- What a step of a command in flight can do: commit it, or leave what only commits write. -/
theorem exec_cases {i : Instr} {s t : State} (hphase : s.phase ≠ .idle) (h : exec i s = .next t) :
    commitOf i s = .next t ∨ (s.CommittedKept t ∧ s.CommandKept i t) := by
  cases hp : s.phase with
  | idle => exact absurd hp hphase
  | check =>
    rw [exec_check i hp] at h
    cases h
    exact .inr ⟨checkStep_committedKept i s, checkStep_commandKept i s⟩
  | run =>
    rw [exec_run i hp] at h
    exact .inr ⟨runStep_committedKept h, runStep_commandKept h⟩
  | commit => exact .inl (exec_commit i hp ▸ h)

/-- No step of a command in flight changes the build, CUR_CMD or OVERRUN. -/
theorem exec_unchanged {i : Instr} {s t : State} (hphase : s.phase ≠ .idle) (h : exec i s = .next t) :
    t.params = s.params ∧ t.curCmd = s.curCmd ∧ t.events.overrun = s.events.overrun := by
  rcases exec_cases hphase h with hcommit | ⟨hcommitted, hcommand⟩
  · rcases commit_cases i s with ⟨c, u, hnext, hparams, hevents, hcurCmd, -⟩ | hfault
    · rw [hnext] at hcommit
      cases hcommit
      exact ⟨hparams, hcurCmd, by simp [hevents]⟩
    · rw [hfault] at hcommit
      cases hcommit
  · exact ⟨hcommitted.params, hcommand.curCmd, hcommand.overrun⟩

/-- SESSION changes in a step of IDENTIFY or LOAD_CAL only (R34), CONFIGURED in one of CONFIGURE only (R38). -/
theorem exec_session_configured {i : Instr} {s t : State} (hphase : s.phase ≠ .idle) (h : exec i s = .next t) :
    (i = .identify ∨ i = .loadCal ∨ t.status.session = s.status.session) ∧
    ((∃ hum m, i = .configure hum m) ∨ t.status.configured = s.status.configured) := by
  rcases exec_cases hphase h with hcommit | ⟨hcommitted, -⟩
  · obtain ⟨hsession, hconfigured⟩ := commitOf_session_configured hcommit
    exact ⟨hsession, hconfigured.imp_left fun ⟨hum, m, hi, _⟩ => ⟨hum, m, hi⟩⟩
  · exact ⟨.inr (.inr hcommitted.session), .inr hcommitted.configured⟩

/-! ### What each commit writes -/

/-- IDENTIFY's commit writes CHIP_ID, SESSION and what completion writes. -/
theorem commitIdentify_frame {s t : State} (h : commitIdentify s = .next t) :
    t.regs = { s.regs with chipId := t.regs.chipId } ∧
    t.status = { s.status with session := t.status.session, lastErr := t.status.lastErr, busy := t.status.busy } := by
  unfold commitIdentify at h
  split at h
  · split at h <;> cases h <;> exact ⟨rfl, rfl⟩
  · cases h

theorem commitLoadCal_next {s t : State} (h : commitLoadCal s = .next t) :
    t = complete .ok { s with regs := s.regs.storeCalibration s.params s.rx, status := s.status.loadCal } := by
  unfold commitLoadCal at h
  split at h <;> cases h
  rfl

/-- MEASURE's commit writes the bytes read and the counts. -/
theorem commitMeasure_regs {s t : State} (h : commitMeasure s = .next t) :
    t.regs = s.regs.storeMeasurement s.params.variant (measBytes s.params s.rx) := by
  unfold commitMeasure at h
  split at h <;> cases h
  rfl

/-- CYCLE's commit writes neither CHIP_ID nor anything of the calibration. -/
theorem commitCycle_regs {s t : State} (h : commitCycle s = .next t) :
    t.regs = { t.regs with
      chipId := s.regs.chipId, dig := s.regs.dig, rawCal := s.regs.rawCal, rawTail := s.regs.rawTail } := by
  unfold commitCycle at h
  split at h <;> cases h
  dsimp only [complete_regs]
  split <;> rfl

/-! ### Where the bytes of the frames stand in RX -/

/-- The calibration bytes follow the throwaway byte of the first frame (R166). -/
theorem calBytes_frames {cal : List Byte} (throwaway : Byte) (later : List Byte) (hcal : cal.length = 26) :
    calBytes (throwaway :: (cal ++ later)) = cal := by
  rw [calBytes, List.drop_one, List.tail_cons, ← hcal, List.take_left]

/-- The tail bytes follow the throwaway byte of the second frame (R166). -/
theorem tailBytes_frames {cal tail : List Byte} (throw1 throw2 : Byte) (hcal : cal.length = 26) (htail : tail.length = 7) :
    tailBytes (throw1 :: (cal ++ throw2 :: tail)) = tail := by
  have hbefore : (throw1 :: (cal ++ [throw2])).length = 28 := by simp [hcal]
  have hrx : throw1 :: (cal ++ throw2 :: tail) = (throw1 :: (cal ++ [throw2])) ++ tail := by simp
  rw [tailBytes, hrx, ← hbefore, List.drop_left, ← htail, List.take_length]

/-- The data bytes follow those of the trigger frame and the throwaway byte (R175). -/
theorem measBytes_frames {p : Params} {trig : List Byte} (throwaway : Byte) (meas : List Byte)
    (htrig : trig.length = trigTransfers p) : measBytes p (trig ++ throwaway :: meas) = meas := by
  rw [measBytes, ← htrig, List.drop_length_add_append, List.drop_one, List.tail_cons]

/-! ## The obligations -/

/-- Settles O31: a run step with an event has a next state, and only completion writes STATUS and EVENTS. -/
theorem runStepNeverStops : Obligations.RunStepNeverStops := by
  intro i s hphase hev
  obtain ⟨t, hstep⟩ := runStep_next (abortOf i) hev
  exact ⟨t, (exec_run i hphase).trans hstep, (runStep_committedKept hstep).regs, runStep_open hstep⟩

/-- Settles O34: the check step sets up the script, and then each of its events takes one step. -/
theorem answeredCommandReachesCommit : Obligations.AnsweredCommandReachesCommit := by
  intro i s bytes rest turns hphase hdecode hcode hcs hsensor hbytes hanswers hschedule
  have hcheck := (step_decoded hschedule (by simp [hphase]) hdecode).trans (exec_check i hphase)
  have hrun := (checkStep_answered turns hdecode hcode hsensor hbytes hanswers).run
  have hselect : (scriptOf s.params i).foldl PortEvent.csNext false = false := csAfter_scriptOf s.params i
  refine (run_of_step _ hcheck).trans (hrun.trans (congrArg Host.Outcome.next ?_))
  rw [checkStep_passed_withSchedule _ _ hcode]
  simp [State.afterEvents, State.withSchedule, beginOf_eq, hselect, hcs]

/-- Settles O55: the commit of each command, and the steps that leave what only commits write. -/
theorem protocolFrame : Obligations.ProtocolFrame := by
  refine fun s t hphase => ⟨fun hexec => ?_, fun h m hexec => ?_, fun hexec => ?_⟩
  all_goals
    obtain ⟨hparams, hcurCmd, hoverrun⟩ := exec_unchanged hphase hexec
    refine ⟨hparams, hcurCmd, ?_⟩
  · rcases exec_cases hphase hexec with hcommit | ⟨hcommitted, hcommand⟩
    · obtain ⟨hregs, hstatus⟩ := commitIdentify_frame hcommit
      exact ⟨hregs, hstatus, hoverrun⟩
    · refine ⟨by rw [hcommitted.regs], ?_, hoverrun⟩
      rw [hcommitted.session]
      exact hcommand.status rfl
  · rcases exec_cases hphase hexec with hcommit | ⟨hcommitted, hcommand⟩
    · cases hcommit
      exact ⟨rfl, rfl, hoverrun⟩
    · refine ⟨hcommitted.regs, ?_, hoverrun⟩
      rw [hcommitted.configured]
      exact hcommand.status rfl
  · have hconfigured : t.status.configured = s.status.configured := by
      simpa using (exec_session_configured hphase hexec).2
    rcases exec_cases hphase hexec with hcommit | ⟨hcommitted, -⟩
    · rw [commitLoadCal_next hcommit] at hconfigured hoverrun ⊢
      exact ⟨rfl, hconfigured, hoverrun⟩
    · exact ⟨by rw [hcommitted.regs], hconfigured, hoverrun⟩

/-- Settles O56: the commits of the two commands, and the steps that leave what only commits write. -/
theorem measureCycleFrame : Obligations.MeasureCycleFrame := by
  refine fun h m s t hphase => ⟨fun hexec => ?_, fun hexec => ?_⟩
  all_goals
    obtain ⟨hparams, hcurCmd, hoverrun⟩ := exec_unchanged hphase hexec
    obtain ⟨hsession, hconfigured⟩ := exec_session_configured hphase hexec
    refine ⟨hparams, hcurCmd, ?_, by simpa using hsession, by simpa using hconfigured, hoverrun⟩
    rcases exec_cases hphase hexec with hcommit | ⟨hcommitted, -⟩
  · rw [commitMeasure_regs hcommit]
    rfl
  · rw [hcommitted.regs]
  · exact commitCycle_regs hcommit
  · rw [hcommitted.regs]

/-- Settles O7: the host's write at the offset of CMD is an offer. -/
theorem commandOffered : Obligations.CommandOffered := by
  intro s w ops turns hschedule hprogram
  have hstep := step_write hschedule hprogram (by decide)
  rw [hostWrite_cmd] at hstep
  refine ⟨fun hbusy => ?_, fun hfree => ?_⟩
  · rw [hstep, offer_busy w (by exact hbusy)]
    simp [popProgram, hprogram, Events.setOverrun]
  · rw [hstep, offer_free w (by exact hfree)]
    simp [popProgram, hprogram, accept, Status.accept]

/-- Settles O26: with PHASE = IDLE, `exec` is the offer. -/
theorem execOffersItsWord : Obligations.ExecOffersItsWord := by
  refine fun i s hphase => ⟨fun hfree => ?_, fun hbusy => ?_⟩
  · rw [exec_idle i hphase, offer_free _ hfree]
    rfl
  · rw [exec_idle i hphase, offer_busy _ hbusy]
    rfl

/-- Settles O28: the check step by its code. -/
theorem checkStepOutcome : Obligations.CheckStepOutcome := by
  refine fun i s hphase => ⟨fun hcode => ?_, fun hcode => ?_⟩
  · rw [exec_check i hphase, checkStep_refused _ hcode, complete_error _ hcode]
  · rw [exec_check i hphase, checkStep_passed _ hcode, beginOf_eq]
    rfl

/-- Settles O29: the frames of each command, for both values of REWRITE_HUM. -/
theorem scriptBytes : Obligations.ScriptBytes := by
  intro p h m hum meas trig data
  have hhum : ctrlHumByte h = hum := (BitVec.ofNat_toNat 8 h).symm
  have hmeas : ctrlMeasByte m = meas := by cases m <;> rfl
  have hcfg : cfgFrame h m =
      [.csAssert, .xfer 0x72, .xfer hum, .xfer 0x74, .xfer meas, .xfer 0x75, .xfer 0x00, .csDeassert] := by
    rw [← hhum, ← hmeas]
    rfl
  have htrig : trigFrame p h m = trig := by
    simp only [trig, ← hhum, ← hmeas, trigFrame]
    split <;> rfl
  have hdata : dataFrame = data := rfl
  exact ⟨rfl, hcfg, rfl, congrArg₂ _ htrig hdata, congrArg₂ _ htrig hdata, rfl, rfl, rfl⟩

/-- Settles O30: the event at EV by its kind, and a transfer by where its answer comes from. -/
theorem runStepPerformsEvent : Obligations.RunStepPerformsEvent := by
  intro i s hphase after
  have hafter : (if s.ev + 1 = s.script.length then Phase.commit else s.phase) = after := by rw [hphase]
  rw [exec_run i hphase]
  refine ⟨fun he => ?_, fun he => ?_, fun out b rest he hanswers hsensor => ?_, fun out sn he hanswers hsensor => ?_,
    fun out b rest sn he hanswers hsensor => ?_, fun out he hanswers hsensor => ?_⟩
  · rw [runStep_csAssert _ he, ← hafter]
    rfl
  · rw [runStep_csDeassert _ he, ← hafter]
    rfl
  · rw [runStep_xfer _ he, transferStep_byte _ (transfer_placed out hanswers hsensor), ← hafter]
    rfl
  · rw [runStep_xfer _ he, transferStep_byte _ (transfer_sensor out hanswers hsensor), ← hafter]
    rfl
  · rw [runStep_xfer _ he, transferStep_byte _ (transfer_placed_sensor out hanswers hsensor), ← hafter]
    rfl
  · rw [exec_run i (by exact hphase), runStep_xfer _ he, runStep_xfer _ (by exact he),
      transferStep_env _ (transfer_drawn out hanswers hsensor)]

/-- Settles O32: the transfer's answer is no byte, and the abort is written out. -/
theorem failedTransferAborts : Obligations.FailedTransferAborts := by
  intro i s out a rest hphase he hanswers hfail sensor
  have hnoByte : ∀ b, a ≠ .byte b := by rcases hfail with rfl | ⟨rfl, -⟩ <;> simp
  rw [exec_run i hphase, runStep_xfer _ he, transferStep_failed _ (transfer_noByte out hanswers hnoByte) hfail,
    abort_eq, abortOf_eq]
  cases hcs : s.cs with
  | true => simp [Env.release, Env.disturbSensor, Env.perform, Status.complete, Events.complete, sensor]
  | false => simp [Env.disturbSensor, Env.perform, Status.complete, Events.complete, sensor]

/-- Settles O33: no answer, in a build that waits. -/
theorem unansweredTransferWaits : Obligations.UnansweredTransferWaits := by
  intro i s out rest hphase he hanswers htimeout
  rw [exec_run i hphase, runStep_xfer _ he, transferStep_waits _ (transfer_noByte out hanswers (by simp)) htimeout]

/-- Settles O35: IDENTIFY's commit by the byte received, and the check of the other commands in FAULTED. -/
theorem identifyCommits : Obligations.IdentifyCommits := by
  refine ⟨fun s throwaway chip hphase hrx => ?_, fun s i hphase hfaulted hi hretry => ?_⟩
  · rw [exec_commit _ hphase]
    by_cases hchip : chip = 0x60
    · simp only [commitOf, commitIdentify, hrx, chipIdExpected, hchip, if_true, complete_ok]
    · simp only [commitOf, commitIdentify, hrx, chipIdExpected, hchip, if_false,
        complete_error _ (c := .deviceAbsent) (by decide)]
  · have hcode := checkCode_faulted hfaulted hi hretry
    refine ⟨_, exec_check i hphase, ?_⟩
    rw [checkStep_refused _ (by simp [hcode]), hcode]
    exact ⟨rfl, hfaulted, rfl, rfl, rfl⟩

/-- Settles O36: CONFIGURE's commit completes with OK. -/
theorem configureCommits : Obligations.ConfigureCommits := by
  intro h m s hphase
  rw [exec_commit _ hphase, commitOf, commitConfigure, complete_ok]

/-- Settles O37: the bytes of the two frames are where `calBytes` and `tailBytes` take them. -/
theorem loadCalCommits : Obligations.LoadCalCommits := by
  intro s throw1 throw2 cal tail hphase hcal htail hrx
  have hlength : s.rx.length = 35 := by simp [hrx, hcal, htail]
  have hcalBytes : calBytes s.rx = cal := hrx ▸ calBytes_frames _ _ hcal
  have htailBytes : tailBytes s.rx = tail := hrx ▸ tailBytes_frames _ _ hcal htail
  rw [exec_commit _ hphase, commitOf, commitLoadCal, if_pos hlength, complete_ok]
  simp [Regs.storeCalibration, hcalBytes, htailBytes, Status.loadCal, Status.clearResults]

/-- Settles O38: the data bytes are what follows the trigger frame's bytes and the throwaway byte. -/
theorem measureCommits : Obligations.MeasureCommits := by
  intro h m s trig meas throwaway hphase htrig hmeas hrx
  have hmeasBytes : measBytes s.params s.rx = meas := hrx ▸ measBytes_frames throwaway meas htrig
  have hlength : s.rx.length = trigTransfers s.params + 9 := by
    rw [trigTransfers, ← htrig, hrx]
    simp [hmeas]
  rw [exec_commit _ hphase, commitOf, commitMeasure, if_pos hlength, complete_ok, hmeasBytes]
  rfl

end Sys2Proof.Machine

/-! # The calibration store (spec/41_calibration_store.md): the coefficients as numbers, and the bytes each is decoded from -/

namespace Sys2Proof.Machine

/-! ## A field of two bytes (R201, R202) -/

theorem le16_toNat (lo hi : Byte) : (le16 lo hi).toNat = hi.toNat * 256 + lo.toNat := by
  rw [le16, toNat_append_add]
  omega

/-- A signed field is the two's complement of its number. -/
theorem le16_toInt (lo hi : Byte) :
    (le16 lo hi).toInt = if hi.toNat * 256 + lo.toNat < 32768 then ((hi.toNat * 256 + lo.toNat : Nat) : Int)
      else ((hi.toNat * 256 + lo.toNat : Nat) : Int) - 65536 := by
  have hsign : 2 * (hi.toNat * 256 + lo.toNat) < 2 ^ 16 ↔ hi.toNat * 256 + lo.toNat < 32768 := by omega
  simp only [BitVec.toInt_eq_toNat_cond, le16_toNat, hsign]
  rfl

theorem le16_comm_iff (lo hi : Byte) : le16 lo hi = le16 hi lo ↔ lo = hi := by
  constructor
  · intro h
    have hnum : (le16 lo hi).toNat = (le16 hi lo).toNat := congrArg BitVec.toNat h
    rw [le16_toNat, le16_toNat] at hnum
    exact BitVec.eq_of_toNat_eq (by omega)
  · rintro rfl
    rfl

/-! ## A nibble-packed field (R207, R208) -/

/-- The shift leaves the nibble's place free, so the field is the high byte, extended to twelve bits, followed by the nibble. -/
theorem nibbleField_eq_append (signed : Bool) (hi : Byte) (nibble : BitVec 4) :
    nibbleField signed hi nibble = (if signed then hi.signExtend 12 else hi.zeroExtend 12) ++ nibble := by
  apply BitVec.eq_of_getLsbD_eq
  intro k hk
  rw [nibbleField, BitVec.getLsbD_append]
  by_cases hlow : k < 4
  · simp [hlow, hk]
  · have hnibble : nibble.getLsbD k = false := BitVec.getLsbD_of_ge _ _ (by omega)
    have hwidth : k - 4 < 12 := by omega
    cases signed <;> simp [hlow, hk, hnibble, hwidth, BitVec.getElem_signExtend]

theorem nibbleField_toInt (signed : Bool) (hi : Byte) (nibble : BitVec 4) :
    (nibbleField signed hi nibble).toInt = (if signed then hi.toInt else hi.toNat) * 16 + nibble.toNat := by
  have hextend : (if signed then hi.signExtend 12 else hi.zeroExtend 12).toInt = if signed then hi.toInt else hi.toNat := by
    cases signed with
    | true => exact BitVec.toInt_signExtend_of_le (by decide)
    | false => exact BitVec.toInt_setWidth'_of_lt (by decide)
  rw [nibbleField_eq_append, BitVec.toInt_append, if_neg (by decide), hextend, mul_comm]
  rfl

theorem lowNibble_toNat (b : Byte) : (b.extractLsb' 0 4).toNat = b.toNat % 16 := by
  simp [BitVec.extractLsb'_toNat]

theorem highNibble_toNat (b : Byte) : (b.extractLsb' 4 4).toNat = b.toNat / 16 := by
  rw [BitVec.extractLsb'_toNat, Nat.shiftRight_eq_div_pow]
  omega

/-! ## Which bytes a field depends on (R212) -/

theorem getD_set_ne {bytes : List Byte} {k j : Nat} (b : Byte) (h : k ≠ j) :
    (bytes.set k b).getD j 0 = bytes.getD j 0 := by
  rw [List.getD_eq_getElem?_getD, List.getElem?_set_ne h, List.getD_eq_getElem?_getD]

theorem calField_set {k i : Nat} (cal : List Byte) (b : Byte) (h : k / 2 ≠ i) :
    calField (cal.set k b) i = calField cal i := by
  rw [calField, getD_set_ne b (by omega), getD_set_ne b (by omega), calField]

theorem pressureField_set {k i : Nat} (keep : Bool) (cal : List Byte) (b : Byte) (h : k / 2 ≠ i) :
    pressureField keep (cal.set k b) i = pressureField keep cal i := by
  rw [pressureField, calField_set cal b h, pressureField]

/-! ## The obligations -/

/-- Settles O46: every field is two bytes or one byte, and TH decodes no pressure field. -/
theorem coefficientsAssembled : Obligations.CoefficientsAssembled := by
  intro p cal tail d u sg
  have hu (i : Nat) : (calField cal i).toNat = u i := le16_toNat _ _
  have hs (i : Nat) : (calField cal i).toInt = sg (u i) := le16_toInt _ _
  obtain ⟨variant, _, _, _, _⟩ := p
  refine ⟨hu 0, hs 1, hs 2, ?_, ?_, rfl, le16_toInt _ _, rfl, rfl⟩
  · rintro rfl
    exact ⟨hu 3, hs 4, hs 5, hs 6, hs 7, hs 8, hs 9, hs 10, hs 11⟩
  · rintro rfl
    exact ⟨rfl, rfl, rfl, rfl, rfl, rfl, rfl, rfl, rfl⟩

/-- Settles O47: the nibble-packed fields by the value of H45_SIGNED. -/
theorem nibbleFieldsAssembled : Obligations.NibbleFieldsAssembled := by
  intro p cal tail d shared
  simp only [d, shared, decodeCalibration, nibbleField_toInt, lowNibble_toNat, highNibble_toNat]
  refine ⟨fun hunsigned => ?_, fun hsigned => ?_⟩
  · simp [hunsigned]
  · simp [hsigned]

/-- Settles O48: a field is decoded from its own bytes only. -/
theorem byteOrderMatters : Obligations.ByteOrderMatters := by
  refine ⟨le16_comm_iff, fun p cal tail k b _ _ => ?_, fun p cal tail k b _ _ => ?_⟩
  · have hbyte {j : Nat} (h : k ≠ j) : (tail.set k b).getD j 0 = tail.getD j 0 := getD_set_ne b h
    refine ⟨fun h3 h4 => ?_, fun h5 h4 => ?_, fun h0 h1 => ?_, hbyte, hbyte, rfl, rfl, rfl, rfl, rfl, rfl, rfl, rfl, rfl, rfl,
      rfl, rfl, rfl⟩
    · simp only [decodeCalibration, hbyte h3, hbyte h4]
    · simp only [decodeCalibration, hbyte h5, hbyte h4]
    · simp only [decodeCalibration, hbyte h0, hbyte h1]
  · have hfield {i : Nat} : k / 2 ≠ i → calField (cal.set k b) i = calField cal i := calField_set cal b
    have hpressure {i : Nat} :
        k / 2 ≠ i → pressureField (p.variant == .thp) (cal.set k b) i = pressureField (p.variant == .thp) cal i :=
      pressureField_set _ cal b
    exact ⟨hfield, hfield, hfield, hpressure, hpressure, hpressure, hpressure, hpressure, hpressure, hpressure, hpressure,
      hpressure, getD_set_ne b, rfl, rfl, rfl, rfl, rfl⟩

end Sys2Proof.Machine

/-! # The measurement decoder (spec/42_measurement_decoder.md): the raw counts as numbers -/

namespace Sys2Proof.Machine

/-- R231, R232: three bytes divided by 16 are below `2 ^ 20`, so the count's width cuts nothing off. -/
theorem count20_toNat (msb lsb xlsb : Byte) :
    (count20 msb lsb xlsb).toNat = (msb.toNat * 2 ^ 16 + lsb.toNat * 2 ^ 8 + xlsb.toNat) / 2 ^ 4 := by
  rw [count20, BitVec.extractLsb'_toNat, Nat.shiftRight_eq_div_pow, toNat_append_add, toNat_append_add]
  omega

/-- Settles O45: two counts are three bytes divided by 16, and the third is two bytes. -/
theorem countsAssembled : Obligations.CountsAssembled := by
  intro b0 b1 b2 b3 b4 b5 b6 b7 c
  have hhum : c.hum.toNat = 2 ^ 8 * b6.toNat + b7.toNat := toNat_append_add b6 b7
  exact ⟨count20_toNat b0 b1 b2, count20_toNat b3 b4 b5, hhum.trans (by rw [mul_comm])⟩

end Sys2Proof.Machine

/-! # Compensation (spec/43_compensation.md): the formulas over the integers, their ranges, and what the commands commit -/

namespace Sys2Proof.Machine

/-! ## The operators of R9 on the integers a word stands for -/

theorem toInt_add_wrap (x y : Word) : (x + y).toInt = wrap (x.toInt + y.toInt) := BitVec.toInt_add x y

theorem toInt_sub_wrap (x y : Word) : (x - y).toInt = wrap (x.toInt - y.toInt) := BitVec.toInt_sub

theorem toInt_mul_wrap (x y : Word) : (x * y).toInt = wrap (x.toInt * y.toInt) := BitVec.toInt_mul x y

theorem toInt_eq_wrap_toNat (x : Word) : x.toInt = wrap x.toNat := x.toInt_eq_toNat_bmod

/-- A left shift multiplies, of whichever sign the word is read. -/
theorem toInt_shiftLeft_wrap (x : Word) (k : Nat) : (x <<< k).toInt = wrap (x.toInt * 2 ^ k) := by
  have hnat : (x <<< k).toInt = wrap (x.toNat * 2 ^ k) := by
    rw [BitVec.toInt_shiftLeft, Nat.shiftLeft_eq, Nat.cast_mul, Nat.cast_pow]
    rfl
  rw [hnat, toInt_eq_wrap_toNat, wrap, wrap, wrap, Int.bmod_mul_bmod]

theorem toInt_sshiftRight_sar (x : Word) (k : Nat) : (x.sshiftRight k).toInt = sar x.toInt k := by
  rw [BitVec.toInt_sshiftRight, Int.shiftRight_eq_div_pow, sar, Nat.cast_pow, Nat.cast_ofNat]

theorem unsigned_wrap (x : Int) : unsigned (wrap x) = unsigned x := Int.bmod_emod

/-- The unsigned reading of a word from its signed one. -/
theorem unsigned_toInt (x : Word) : unsigned x.toInt = x.toNat := by
  have hlt := x.isLt
  rw [toInt_eq_wrap_toNat, unsigned_wrap, unsigned]
  omega

theorem toNat_ushiftRight_div (x : Word) (k : Nat) : (x >>> k).toNat = x.toNat / 2 ^ k := by
  rw [BitVec.toNat_ushiftRight, Nat.shiftRight_eq_div_pow]

theorem toNat_mul_unsigned (x y : Word) : ((x * y).toNat : Int) = unsigned (x.toNat * y.toNat) := by
  rw [BitVec.toNat_mul, unsigned]
  push_cast
  rfl

theorem toNat_sub_unsigned (x y : Word) : ((x - y).toNat : Int) = unsigned (x.toNat - y.toNat) := by
  have hx := x.isLt
  have hy := y.isLt
  rw [BitVec.toNat_sub, unsigned]
  omega

theorem toInt_range (x : Word) : -2147483648 ≤ x.toInt ∧ x.toInt < 2147483648 := ⟨x.le_toInt, x.toInt_lt⟩

/-! ## Temperature (R261) -/

theorem tFineOf_toInt (adcT t1 t2 t3 : Word) :
    (tFineOf adcT t1 t2 t3).toInt = (tempReference adcT.toInt t1.toInt t2.toInt t3.toInt).2 := by
  simp only [tFineOf, tempReference, toInt_add_wrap, toInt_sub_wrap, toInt_mul_wrap, toInt_shiftLeft_wrap,
    toInt_sshiftRight_sar, pow_one]

theorem centiDegrees_toInt (tf : Word) : (centiDegrees tf).toInt = sar (wrap (wrap (tf.toInt * 5) + 128)) 8 := by
  rw [centiDegrees, toInt_sshiftRight_sar, toInt_add_wrap, toInt_mul_wrap]
  rfl

/-! ## Humidity (R271) -/

/-- The clamp on the integer the word stands for. -/
theorem humClamp_toNat (v : Word) :
    ((humClamp v).toNat : Int) = if v.toInt < 0 then 0 else if v.toInt > 419430400 then 419430400 else v.toInt := by
  have hneg : v.slt 0 = true ↔ v.toInt < 0 := BitVec.slt_iff_toInt_lt
  have hmax : (419430400 : Word).slt v = true ↔ v.toInt > 419430400 := BitVec.slt_iff_toInt_lt
  simp only [humClamp, hneg, hmax]
  split
  · rfl
  · next hnonneg =>
    split
    · rfl
    · rw [← unsigned_toInt, unsigned, Int.emod_eq_of_lt (not_lt.mp hnonneg)]
      exact (toInt_range v).2.trans (by decide)

theorem compHum_q10_toNat (adcH tf h1 h2 h3 h4 h5 h6 : Word) :
    (compHum adcH tf h1 h2 h3 h4 h5 h6).1.toNat = (humClamp (humPolynomial adcH tf h1 h2 h3 h4 h5 h6)).toNat / 4096 :=
  toNat_ushiftRight_div _ 12

/-- Up to the clamp's maximum the product of R271's last line does not wrap. -/
theorem milliOfQ10_toNat {q10 : Word} (h : q10.toNat ≤ 102400) : (milliOfQ10 q10).toNat = q10.toNat * 1000 / 1024 := by
  have hprod : (q10 * 1000).toNat = q10.toNat * 1000 :=
    (BitVec.toNat_mul q10 1000).trans (Nat.mod_eq_of_lt (by simp; omega))
  exact (BitVec.toNat_udiv ..).trans (congrArg (· / 1024) hprod)

theorem compHum_milli_toNat (adcH tf h1 h2 h3 h4 h5 h6 : Word) :
    (compHum adcH tf h1 h2 h3 h4 h5 h6).2.toNat = (compHum adcH tf h1 h2 h3 h4 h5 h6).1.toNat * 1000 / 1024 :=
  milliOfQ10_toNat (compHum_toNat_le ..).1

/-! ## Pressure (R281) -/

theorem pressVar1_toInt (tf : Word) : (pressVar1 tf).toInt = wrap (sar tf.toInt 1 - 64000) := by
  rw [pressVar1, toInt_sub_wrap, toInt_sshiftRight_sar]
  rfl

theorem pressDen_toInt (tf p1 p2 p3 : Word) :
    (pressDen tf p1 p2 p3).toInt = pressDenReference tf.toInt p1.toInt p2.toInt p3.toInt := by
  simp only [pressDen, pressScale, pressDenReference, pressVar1_toInt, toInt_add_wrap, toInt_mul_wrap,
    toInt_sshiftRight_sar]
  rfl

theorem pressVar2_toInt (tf p4 p5 p6 : Word) :
    (pressVar2 tf p4 p5 p6).toInt =
      let var1 := (pressVar1 tf).toInt
      let var2 := wrap (wrap (sar (wrap (sar var1 2 * sar var1 2)) 11 * p6.toInt) + wrap (wrap (var1 * p5.toInt) * 2))
      wrap (sar var2 2 + wrap (p4.toInt * 2 ^ 16)) := by
  simp only [pressVar2, toInt_add_wrap, toInt_mul_wrap, toInt_shiftLeft_wrap, toInt_sshiftRight_sar, pow_one]

theorem pressDividend_toNat (adcP tf p4 p5 p6 : Word) :
    ((pressDividend adcP tf p4 p5 p6).toNat : Int) =
      unsigned (unsigned (unsigned (1048576 - adcP.toInt) - unsigned (sar (pressVar2 tf p4 p5 p6).toInt 12)) * 3125) := by
  have hcount : unsigned (1048576 - adcP.toInt) = (1048576 - adcP).toNat := by
    rw [← unsigned_toInt, toInt_sub_wrap, unsigned_wrap]
    rfl
  rw [pressDividend, toNat_mul_unsigned, toNat_sub_unsigned, hcount, ← toInt_sshiftRight_sar, unsigned_toInt]
  rfl

/-! ### The split division (R284) -/

theorem splitDivide_low {p : Word} (den : Word) (h : p.toNat < 2 ^ 31) :
    (splitDivide p den).toNat = 2 * p.toNat / den.toNat := by
  have hpath : p.ult 0x80000000 = true := BitVec.ult_iff_lt.mpr h
  rw [splitDivide, if_pos hpath, BitVec.toNat_udiv, BitVec.toNat_shiftLeft, Nat.shiftLeft_eq, pow_one, mul_comm,
    Nat.mod_eq_of_lt (by omega)]

theorem splitDivide_high {p : Word} (den : Word) (h : 2 ^ 31 ≤ p.toNat) :
    (splitDivide p den).toNat = 2 * (p.toNat / den.toNat) % 2 ^ 32 := by
  have hpath : ¬ p.ult 0x80000000 = true := fun hlow => (BitVec.ult_iff_lt.mp hlow).not_ge h
  rw [splitDivide, if_neg hpath, BitVec.toNat_mul, BitVec.toNat_udiv, mul_comm]
  rfl

/-- Doubling before the division gains at most one over doubling after it. -/
theorem two_mul_div_le (p den : Nat) (h : 0 < den) : 2 * p / den ≤ 2 * (p / den) + 1 := by
  have hlt : p < den * (p / den + 1) := Nat.lt_mul_div_succ p h
  refine Nat.le_of_lt_succ ((Nat.div_lt_iff_lt_mul h).mpr ?_)
  linarith

/-- The quotient on the path its dividend takes. -/
theorem splitDivide_toNat (p den : Word) :
    ((splitDivide p den).toNat : Int) =
      if (p.toNat : Int) < 0x80000000 then unsigned (p.toNat * 2) / unsigned den.toInt
      else unsigned (p.toNat / unsigned den.toInt * 2) := by
  rw [unsigned_toInt]
  split
  · next hlow =>
    have hfits : unsigned (p.toNat * 2) = 2 * p.toNat := by
      rw [unsigned]
      omega
    rw [splitDivide_low den (by omega), hfits]
    rfl
  · next hhigh =>
    rw [splitDivide_high den (by omega), mul_comm, unsigned]
    rfl

theorem pressCorrect_toNat (p p7 p8 p9 : Word) :
    ((pressCorrect p p7 p8 p9).toNat : Int) =
      let w1 := sar (wrap (p9.toInt * wrap (unsigned (p.toNat / 8 * (p.toNat / 8)) / 2 ^ 13))) 12
      let w2 := sar (wrap (wrap (p.toNat / 4) * p8.toInt)) 13
      unsigned (wrap p.toNat + sar (wrap (wrap (w1 + w2) + p7.toInt)) 4) := by
  have hsquare : ((p >>> 3 * p >>> 3) >>> 13).toInt = wrap (unsigned (p.toNat / 8 * (p.toNat / 8)) / 2 ^ 13) := by
    rw [toInt_eq_wrap_toNat, toNat_ushiftRight_div, Int.natCast_ediv, toNat_mul_unsigned, toNat_ushiftRight_div]
    rfl
  have hquarter : (p >>> 2).toInt = wrap (p.toNat / 4) := by
    rw [toInt_eq_wrap_toNat, toNat_ushiftRight_div]
    rfl
  rw [← unsigned_toInt]
  simp only [pressCorrect, toInt_add_wrap, toInt_mul_wrap, toInt_sshiftRight_sar, hsquare, hquarter, unsigned_wrap,
    ← toInt_eq_wrap_toNat]

/-! ### The zero guard (R280, R283) -/

theorem compPress_of_den_zero {tf p1 p2 p3 : Word} (adcP p4 p5 p6 p7 p8 p9 : Word) (h : pressDen tf p1 p2 p3 = 0) :
    compPress adcP tf p1 p2 p3 p4 p5 p6 p7 p8 p9 = (0, true) := if_pos h

theorem compPress_of_den_ne_zero {tf p1 p2 p3 : Word} (adcP p4 p5 p6 p7 p8 p9 : Word) (h : pressDen tf p1 p2 p3 ≠ 0) :
    compPress adcP tf p1 p2 p3 p4 p5 p6 p7 p8 p9 =
      (pressCorrect (splitDivide (pressDividend adcP tf p4 p5 p6) (pressDen tf p1 p2 p3)) p7 p8 p9, false) := if_neg h

theorem compPress_flag_iff (adcP tf p1 p2 p3 p4 p5 p6 p7 p8 p9 : Word) :
    (compPress adcP tf p1 p2 p3 p4 p5 p6 p7 p8 p9).2 = true ↔ pressDen tf p1 p2 p3 = 0 := by
  by_cases h : pressDen tf p1 p2 p3 = 0
  · rw [compPress_of_den_zero _ _ _ _ _ _ _ h]
    exact iff_of_true rfl h
  · rw [compPress_of_den_ne_zero _ _ _ _ _ _ _ h]
    exact iff_of_false nofun h

theorem sshiftRight_18_range (x : Word) : -8192 ≤ (x.sshiftRight 18).toInt ∧ (x.sshiftRight 18).toInt ≤ 8191 := by
  obtain ⟨hlow, hhigh⟩ := toInt_range x
  rw [toInt_sshiftRight_sar, sar]
  omega

/-- The shift by 18 leaves a 14-bit signed scale. -/
theorem pressScale_range (tf p2 p3 : Word) : -8192 ≤ (pressScale tf p2 p3).toInt ∧ (pressScale tf p2 p3).toInt ≤ 8191 :=
  sshiftRight_18_range _

/-- The shift by 15 makes a product 0 where it is below `2 ^ 15`: from `2 ^ 31` on, its wrap is negative. -/
theorem sar_wrap_eq_zero_iff {x : Int} (hlow : 0 ≤ x) (hhigh : x < 4294967296) : sar (wrap x) 15 = 0 ↔ x < 32768 := by
  rw [sar, wrap, Int.bmod_def]
  omega

/-- The sum with a 14-bit signed scale does not wrap, and an unsigned 16-bit `dig_P1` extends to its own number. -/
theorem pressDen_toInt_scale (tf p2 p3 : Word) (p1 : BitVec 16) :
    (pressDen tf (p1.zeroExtend 32) p2 p3).toInt =
      sar (wrap ((32768 + (pressScale tf p2 p3).toInt) * p1.toNat)) 15 := by
  obtain ⟨hlow, hhigh⟩ := pressScale_range tf p2 p3
  have hsum : (32768 + pressScale tf p2 p3).toInt = 32768 + (pressScale tf p2 p3).toInt :=
    (toInt_add_wrap ..).trans (Int.bmod_eq_of_le (by simp; omega) (by simp; omega))
  have hp1 : (p1.zeroExtend 32).toInt = p1.toNat := BitVec.toInt_setWidth'_of_lt (by decide)
  rw [pressDen, toInt_sshiftRight_sar, toInt_mul_wrap, hsum, hp1]

/-- The scale plus 32768 lies in 24576 to 40959, so `dig_P1 = 1` reaches zero and `dig_P1 = 2` does not (R283). -/
theorem pressDen_eq_zero_iff (tf p2 p3 : Word) (p1 : BitVec 16) :
    pressDen tf (p1.zeroExtend 32) p2 p3 = 0 ↔ p1 = 0 ∨ (p1 = 1 ∧ (pressScale tf p2 p3).toInt < 0) := by
  have hrange := pressScale_range tf p2 p3
  have hden := pressDen_toInt_scale tf p2 p3 p1
  generalize (pressScale tf p2 p3).toInt = scale at hrange hden ⊢
  obtain ⟨hlow, hhigh⟩ := hrange
  have hp1 := p1.isLt
  have hnonneg : 0 ≤ (32768 + scale) * p1.toNat := mul_nonneg (by omega) (by omega)
  have hfits : (32768 + scale) * p1.toNat < 4294967296 := by nlinarith
  have hzero : p1 = 0 ↔ p1.toNat = 0 := BitVec.toNat_inj.symm
  have hone : p1 = 1 ↔ p1.toNat = 1 := BitVec.toNat_inj.symm
  rw [← BitVec.toInt_inj, hden, hzero, hone]
  refine (sar_wrap_eq_zero_iff hnonneg hfits).trans ?_
  constructor
  · intro h
    have : p1.toNat < 2 := by
      by_contra hge
      nlinarith
    interval_cases p1.toNat <;> omega
  · rintro (h | ⟨h, hneg⟩) <;> rw [h] <;> omega

/-! ## The commands -/

/-- A command's check and commit steps leave chip select and what stands outside the engine. -/
theorem exec_outside_kept {i : Instr} {s t : State} (hidle : s.phase ≠ .idle) (hrun : s.phase ≠ .run)
    (h : exec i s = .next t) : t.cs = s.cs ∧ t.env = s.env := by
  cases hphase : s.phase with
  | idle => exact absurd hphase hidle
  | run => exact absurd hphase hrun
  | check =>
    rw [exec_check i hphase] at h
    cases h
    by_cases hcode : checkCode s.params i s.status = .ok
    · rw [checkStep_passed _ hcode]
      exact ⟨rfl, rfl⟩
    · rw [checkStep_refused _ hcode]
      exact ⟨rfl, rfl⟩
  | commit =>
    rw [exec_commit i hphase] at h
    rcases commit_cases i s with ⟨c, u, hnext, -, -, -, hcs, henv, -⟩ | hfault
    · rw [hnext] at h
      cases h
      exact ⟨hcs, henv⟩
    · rw [hfault] at h
      cases h

/-! ## The obligations -/

/-- Settles O49: the temperature is read off `t_fine`, which is the sum of R261. -/
theorem temperatureFormula : Obligations.TemperatureFormula := by
  intro adcT t1 t2 t3
  simp only [compTemp, centiDegrees_toInt, tFineOf_toInt]
  rfl

/-- Settles O50: the polynomial on integers, then its clamp, then the two scalings. -/
theorem humidityFormula : Obligations.HumidityFormula := by
  intro adcH tf h1 h2 h3 h4 h5 h6
  rw [compHum_milli_toNat, compHum_q10_toNat]
  push_cast
  rw [humClamp_toNat]
  simp only [humPolynomial, humReference, toInt_add_wrap, toInt_sub_wrap, toInt_mul_wrap, toInt_shiftLeft_wrap,
    toInt_sshiftRight_sar]
  rfl

/-- Settles O51: the guard by the denominator's integer, then the dividend, the quotient and the correction. -/
theorem pressureFormula : Obligations.PressureFormula := by
  intro adcP tf p1 p2 p3 p4 p5 p6 p7 p8 p9
  have hden := pressDen_toInt tf p1 p2 p3
  have hzero : pressDenReference tf.toInt p1.toInt p2.toInt p3.toInt = 0 ↔ pressDen tf p1 p2 p3 = 0 := by
    rw [← hden, ← BitVec.toInt_inj]
    rfl
  by_cases h : pressDen tf p1 p2 p3 = 0
  · rw [compPress_of_den_zero _ _ _ _ _ _ _ h, pressReference, if_pos (hzero.mpr h)]
    rfl
  · rw [compPress_of_den_ne_zero _ _ _ _ _ _ _ h, pressReference, if_neg (mt hzero.mp h)]
    simp only [pressCorrect_toNat, splitDivide_toNat, pressDividend_toNat, pressVar2_toInt, pressVar1_toInt, hden]

/-- Settles O52: the clamp's bounds, and the scaling below them. -/
theorem humidityClamped : Obligations.HumidityClamped := by
  intro adcH tf h1 h2 h3 h4 h5 h6 r
  obtain ⟨hq10, hmilli⟩ := compHum_toNat_le adcH tf h1 h2 h3 h4 h5 h6
  exact ⟨hq10, hmilli, compHum_milli_toNat ..⟩

/-- Settles O53: the flag is set by a zero denominator alone. -/
theorem pressureDenominator : Obligations.PressureDenominator := by
  intro adcP tf p2 p3 p4 p5 p6 p7 p8 p9 p1 scale r
  obtain ⟨hlow, hhigh⟩ := pressScale_range tf p2 p3
  have hflag : r.2 = true ↔ pressDen tf (p1.zeroExtend 32) p2 p3 = 0 := compPress_flag_iff ..
  refine ⟨hlow, hhigh, hflag.trans (pressDen_eq_zero_iff tf p2 p3 p1), fun hset => ?_⟩
  exact congrArg Prod.fst (compPress_of_den_zero adcP p4 p5 p6 p7 p8 p9 (hflag.mp hset))

/-- Settles O54: the two paths of the split division. -/
theorem splitDivision : Obligations.SplitDivision := by
  intro p den hden
  have hpos : 0 < den.toNat := Nat.pos_of_ne_zero fun h => hden (BitVec.eq_of_toNat_eq h)
  exact ⟨splitDivide_low den, fun hhigh => ⟨splitDivide_high den hhigh, two_mul_div_le _ _ hpos⟩⟩

/-- Settles O57: the commit of each command, and the check step, which leaves what only commits write. -/
theorem compensationFrame : Obligations.CompensationFrame := by
  refine fun s t hidle hrun => ⟨fun hexec => ?_, fun hexec => ?_, fun hexec => ?_⟩
  all_goals
    obtain ⟨hparams, hcurCmd, hoverrun⟩ := exec_unchanged hidle hexec
    obtain ⟨hcs, henv⟩ := exec_outside_kept hidle hrun hexec
    refine ⟨hparams, hcurCmd, hcs, henv, ?_⟩
    rcases exec_cases hidle hexec with hcommit | ⟨hcommitted, hcommand⟩
    · cases hcommit
      rw [complete_status, updateCycle_eq]
      exact ⟨rfl, rfl, hoverrun⟩
    · rw [hcommitted.regs, hcommand.status rfl]
      exact ⟨rfl, rfl, hoverrun⟩

/-- Settles O39: T_FINE and T_OUT written, UPDATE_CYCLE and completion; the counts and the coefficients stay. -/
theorem compTCommits : Obligations.CompTCommits := by
  intro s hphase result
  refine ⟨_, exec_commit _ hphase, ?_, rfl⟩
  rw [complete_ok, updateCycle_eq]
  simp only [allValid_iff, true_and]
  rfl

/-- Settles O40: H_Q10 and H_OUT written, UPDATE_CYCLE and completion. -/
theorem compHCommits : Obligations.CompHCommits := by
  intro s hphase result
  rw [exec_commit _ hphase, commitOf, commitCompH, complete_ok, updateCycle_eq]
  simp only [allValid_iff, true_and]
  rfl

/-- Settles O41: P_OUT and P_DEN_ZERO written, UPDATE_CYCLE and completion, with one code for both values of the flag. -/
theorem compPCommits : Obligations.CompPCommits := by
  intro s hphase d result
  rw [exec_commit _ hphase, commitOf, commitCompP, complete_ok, updateCycle_eq]
  simp only [allValid_iff, true_or, and_true]
  rfl

end Sys2Proof.Machine

/-! # CYCLE and the sequencer's step (spec/44_cycle.md): the position, CYCLE's commit, and the sequence it stands for -/

namespace Sys2Proof.Machine

/-! ## How the sequencer's position moves (R311) -/

theorem checkStep_position (i : Instr) (begin : Status → Status) (s : State) :
    ((checkStep i begin s).phase = .idle ∧ (checkStep i begin s).status.lastErr ≠ .ok) ∨
    ((checkStep i begin s).phase = .run ∧ (checkStep i begin s).ev = 0 ∧ (checkStep i begin s).script ≠ []) ∨
    ((checkStep i begin s).phase = .commit ∧ (checkStep i begin s).script = []) := by
  by_cases hcode : checkCode s.params i s.status = .ok
  · rw [checkStep_passed begin hcode]
    by_cases hscript : scriptOf s.params i = []
    · exact .inr (.inr ⟨if_pos hscript, hscript⟩)
    · exact .inr (.inl ⟨if_neg hscript, rfl, hscript⟩)
  · rw [checkStep_refused begin hcode]
    exact .inl ⟨rfl, hcode⟩

theorem runStep_position {s t : State} {action : Status → Status} (hphase : s.phase = .run)
    (h : runStep action s = .next t) :
    (t.ev = s.ev + 1 ∧ t.script = s.script ∧ t.phase = if t.ev = s.script.length then .commit else .run) ∨
    (t.phase = .idle ∧ t.status.lastErr = .transport) ∨
    (t = { s with env := t.env } ∧ t.env.port = s.env.port) := by
  rcases runStep_inv h with rfl | rfl | ⟨out, rfl⟩
  · exact .inl ⟨rfl, rfl, by simp [hphase]⟩
  · exact .inl ⟨rfl, rfl, by simp [hphase]⟩
  · rcases transferStep_cases action out s with ⟨b, env, -, hstep⟩ | ⟨env, -, hstep⟩ | ⟨env, henv, -, hstep⟩
    all_goals rw [hstep]
    · exact .inl ⟨rfl, rfl, by simp [hphase]⟩
    · exact .inr (.inl ⟨rfl, rfl⟩)
    · obtain ⟨hport, -⟩ := transfer_frame out s.env
      rw [henv] at hport
      exact .inr (.inr ⟨rfl, hport⟩)

theorem commitOf_phase {i : Instr} {s t : State} (h : commitOf i s = .next t) : t.phase = .idle := by
  rcases commit_cases i s with ⟨c, u, hnext, -⟩ | hfault
  · rw [hnext] at h
    cases h
    rfl
  · rw [hfault] at h
    cases h

/-! ## Names for what the commits of the sequence write to STATUS -/

/-- STATUS with the counts valid, as MEASURE's commit leaves it (R175). -/
def Status.withCounts (x : Status) : Status := { x with rawValid := true }

/-- STATUS as COMP_T's commit leaves it (R262). -/
def Status.withTemperature (v : Variant) (x : Status) : Status :=
  { x with tfineValid := true, tValid := true }.updateCycle v

/-- STATUS as COMP_H's commit leaves it (R272). -/
def Status.withHumidity (v : Variant) (x : Status) : Status := { x with hValid := true }.updateCycle v

/-- STATUS as COMP_P's commit leaves it (R282), `z` being the denominator flag. -/
def Status.withPressure (v : Variant) (z : Bool) (x : Status) : Status :=
  { x with pDenZero := z, pValid := true }.updateCycle v

@[simp] theorem Status.withCounts_session (x : Status) : x.withCounts.session = x.session := rfl
@[simp] theorem Status.withCounts_rawValid (x : Status) : x.withCounts.rawValid = true := rfl

@[simp] theorem Status.withTemperature_session (v : Variant) (x : Status) :
    (x.withTemperature v).session = x.session := Status.updateCycle_session ..

@[simp] theorem Status.withTemperature_tfineValid (v : Variant) (x : Status) :
    (x.withTemperature v).tfineValid = true := by
  rw [Status.withTemperature, updateCycle_eq]

@[simp] theorem Status.withHumidity_session (v : Variant) (x : Status) :
    (x.withHumidity v).session = x.session := Status.updateCycle_session ..

@[simp] theorem Status.withHumidity_tfineValid (v : Variant) (x : Status) :
    (x.withHumidity v).tfineValid = x.tfineValid := by
  rw [Status.withHumidity, updateCycle_eq]

/-- In TH the humidity completes the cycle. -/
theorem Status.Begun.compH_cycleDone {x : Status} (h : x.Begun) (z : Bool) :
    (x.withCounts.withTemperature .th).withHumidity .th = x.cycleDone .th z := by
  simp [Status.withHumidity, Status.withTemperature, Status.withCounts, Status.cycleDone, updateCycle_eq,
    Status.allValid, h.hum]

/-- In THP the pressure completes the cycle. -/
theorem Status.Begun.compP_cycleDone {x : Status} (h : x.Begun) (z : Bool) :
    ((x.withCounts.withTemperature .thp).withHumidity .thp).withPressure .thp z = x.cycleDone .thp z := by
  simp [Status.withPressure, Status.withHumidity, Status.withTemperature, Status.withCounts, Status.cycleDone,
    updateCycle_eq, Status.allValid, h.hum, h.press]

/-! ## A command without port events, run after another has completed -/

theorem checkCode_eq_ok {p : Params} {i : Instr} {x : Status} (hi : i.wellFormed p.variant = true)
    (hsession : sessionCheck p i x.session = .ok) (hcycle : cycleCheck i x = .ok) : checkCode p i x = .ok := by
  simp only [checkCode, hi, if_true, hsession, hcycle]

/-- A check reads neither BUSY nor LAST_ERR. -/
theorem checkCode_completion (p : Params) (i : Instr) (x : Status) (b : Bool) (c : Code) :
    checkCode p i { x with busy := b, lastErr := c } = checkCode p i x := by
  have hcycle : cycleCheck i { x with busy := b, lastErr := c } = cycleCheck i x := by cases i <;> rfl
  simp only [checkCode, hcycle]

/-- Acceptance and the check step bring the command to its commit step (R386). -/
theorem runPlain_completed {i : Instr} {s : State} (hscript : scriptOf s.params i = []) (hbegins : beginsCycle i = false)
    (hcode : checkCode s.params i s.status = .ok) :
    runPlain i (complete .ok s) =
      commitOf i { complete .ok s with
        curCmd := encode i, status := { s.status with busy := true, lastErr := .ok }, phase := .commit } := by
  have hcheck : checkCode s.params i (s.status.complete .ok).accept = .ok :=
    (checkCode_completion s.params i s.status true .ok).trans hcode
  have hpassed := checkStep_passed (s := accept (encode i) (complete .ok s)) (beginOf i) hcheck
  rw [runPlain, exec_idle i rfl, offer_free _ rfl, andThen, exec_check i rfl, andThen, hpassed,
    exec_commit i (by simp [hscript])]
  simp [beginOf_eq, hbegins, hscript, complete, accept, Status.complete, Status.accept]

/-- Of the completion before, a command's own completion leaves nothing to see. -/
theorem complete_completed (s : State) (w : Word) (r : Regs) (x : Status) (v : Variant) :
    complete .ok { complete .ok s with
      curCmd := w, regs := r, status := { x with busy := true, lastErr := .ok }.updateCycle v, phase := .commit } =
    complete .ok { s with curCmd := w, regs := r, status := x.updateCycle v } := by
  rw [complete_ok, complete_ok, complete_ok, updateCycle_eq, updateCycle_eq]
  rfl

theorem runPlain_compT_completed {s : State} (hsession : s.status.session = .calLoaded)
    (hraw : s.status.rawValid = true) :
    runPlain .compT (complete .ok s) = .next (complete .ok { s with
      curCmd := encode .compT, regs := s.regs.storeTemperature, status := s.status.withTemperature s.params.variant }) := by
  have hcode : checkCode s.params .compT s.status = .ok := checkCode_eq_ok rfl (by rw [hsession]; rfl) (if_pos hraw)
  have hcomplete := complete_completed s (encode .compT) s.regs.storeTemperature
    { s.status with tfineValid := true, tValid := true } s.params.variant
  exact (runPlain_completed rfl rfl hcode).trans (congrArg Host.Outcome.next hcomplete)

theorem runPlain_compH_completed {s : State} (hsession : s.status.session = .calLoaded)
    (htfine : s.status.tfineValid = true) :
    runPlain .compH (complete .ok s) = .next (complete .ok { s with
      curCmd := encode .compH, regs := s.regs.storeHumidity, status := s.status.withHumidity s.params.variant }) := by
  have hcode : checkCode s.params .compH s.status = .ok := checkCode_eq_ok rfl (by rw [hsession]; rfl) (if_pos htfine)
  have hcomplete := complete_completed s (encode .compH) s.regs.storeHumidity
    { s.status with hValid := true } s.params.variant
  exact (runPlain_completed rfl rfl hcode).trans (congrArg Host.Outcome.next hcomplete)

theorem runPlain_compP_completed {s : State} (hthp : s.params.variant = .thp) (hsession : s.status.session = .calLoaded)
    (htfine : s.status.tfineValid = true) :
    runPlain .compP (complete .ok s) = .next (complete .ok { s with
      curCmd := encode .compP, regs := s.regs.storePressure
      status := s.status.withPressure s.params.variant s.regs.pressure.2 }) := by
  have hcode : checkCode s.params .compP s.status = .ok :=
    checkCode_eq_ok (by rw [hthp]; rfl) (by rw [hsession]; rfl) (if_pos htfine)
  have hcomplete := complete_completed s (encode .compP) s.regs.storePressure
    { s.status with pDenZero := s.regs.pressure.2, pValid := true } s.params.variant
  exact (runPlain_completed rfl rfl hcode).trans (congrArg Host.Outcome.next hcomplete)

/-! ## CYCLE's commit, and the sequence of commands in its place (R302, R303) -/

theorem variant_cases (v : Variant) : v = .th ∨ v = .thp := by cases v <;> simp

/-- The state CYCLE's commit leaves. -/
def State.afterCycle (s : State) : State :=
  let regs := s.regs.storeCycle s.params.variant (measBytes s.params s.rx)
  complete .ok { s with
    regs := if s.params.variant = .thp then regs.storePressure else regs
    status := s.status.cycleDone s.params.variant regs.pressure.2 }

theorem exec_cycle_commit {s : State} (h : BitVec 3) (m : MeasSel) (hphase : s.phase = .commit)
    (hrx : s.rx.length = trigTransfers s.params + 9) : exec (.cycle h m) s = .next s.afterCycle :=
  (exec_commit _ hphase).trans (if_pos hrx)

theorem exec_measure_commit {s : State} (h : BitVec 3) (m : MeasSel) (hphase : s.phase = .commit)
    (hrx : s.rx.length = trigTransfers s.params + 9) :
    exec (.measure h m) s = .next (complete .ok { s with
      regs := s.regs.storeMeasurement s.params.variant (measBytes s.params s.rx), status := s.status.withCounts }) :=
  (exec_commit _ hphase).trans (if_pos hrx)

theorem measure_compT_compH {s : State} (h : BitVec 3) (m : MeasSel) (hphase : s.phase = .commit)
    (hrx : s.rx.length = trigTransfers s.params + 9) (hsession : s.status.session = .calLoaded) :
    andThen (andThen (exec (.measure h m) s) (runPlain .compT)) (runPlain .compH) = .next (complete .ok { s with
      curCmd := encode .compH
      regs := s.regs.storeCycle s.params.variant (measBytes s.params s.rx)
      status := (s.status.withCounts.withTemperature s.params.variant).withHumidity s.params.variant }) := by
  rw [exec_measure_commit h m hphase hrx, andThen, runPlain_compT_completed (by simpa) rfl, andThen,
    runPlain_compH_completed (by simpa) (by simp)]
  rfl

/-- The sequence ends where CYCLE's commit does, but for CUR_CMD, which holds the last command's word. -/
theorem sequence_th_afterCycle {s : State} (h : BitVec 3) (m : MeasSel) (hth : s.params.variant = .th)
    (hphase : s.phase = .commit) (hrx : s.rx.length = trigTransfers s.params + 9)
    (hsession : s.status.session = .calLoaded) (hbegun : s.status.Begun) :
    andThen (andThen (exec (.measure h m) s) (runPlain .compT)) (runPlain .compH) =
      .next { s.afterCycle with curCmd := encode .compH } := by
  rw [measure_compT_compH h m hphase hrx hsession, State.afterCycle, hth, hbegun.compH_cycleDone]
  rfl

theorem sequence_thp_afterCycle {s : State} (h : BitVec 3) (m : MeasSel) (hthp : s.params.variant = .thp)
    (hphase : s.phase = .commit) (hrx : s.rx.length = trigTransfers s.params + 9)
    (hsession : s.status.session = .calLoaded) (hbegun : s.status.Begun) :
    andThen (andThen (andThen (exec (.measure h m) s) (runPlain .compT)) (runPlain .compH)) (runPlain .compP) =
      .next { s.afterCycle with curCmd := encode .compP } := by
  rw [measure_compT_compH h m hphase hrx hsession, andThen, runPlain_compP_completed (by exact hthp) (by simpa) (by simp),
    State.afterCycle]
  simp only [hthp, hbegun.compP_cycleDone]
  rfl

/-- No host register shows CUR_CMD: CMD reads 0 (R32). -/
theorem readOffset_curCmd (s : State) (w : Word) (off : BitVec 8) :
    readOffset { s with curCmd := w } off = readOffset s off := by
  unfold readOffset
  cases regAt off with
  | none => rfl
  | some r => cases r <;> rfl

/-- The bytes of the trigger frame, the throwaway byte and the eight data bytes (R175). -/
theorem rx_length_frames {p : Params} {trig meas : List Byte} (throwaway : Byte) (htrig : trig.length = trigTransfers p)
    (hmeas : meas.length = 8) : (trig ++ throwaway :: meas).length = trigTransfers p + 9 := by
  simp [htrig, hmeas]

/-! ## The obligations -/

/-- Settles O43: the sequence command by command; only CUR_CMD, which no register shows, tells its end from CYCLE's. -/
theorem cycleEqualsSequence : Obligations.CycleEqualsSequence := by
  intro h m s hphase hbytes hsession hbegun
  have hrx : s.rx.length = trigTransfers s.params + 9 := by
    rw [hbytes, trigTransfers]
    split <;> rfl
  have hcycle := exec_cycle_commit h m hphase hrx
  refine ⟨s.afterCycle, ?_⟩
  rcases variant_cases s.params.variant with hv | hv
  all_goals simp only [hv]
  · exact ⟨_, hcycle, sequence_th_afterCycle h m hv hphase hrx hsession hbegun, readOffset_curCmd _ _, rfl⟩
  · exact ⟨_, hcycle, sequence_thp_afterCycle h m hv hphase hrx hsession hbegun, readOffset_curCmd _ _, rfl⟩

/-- Settles O21, by PHASE. -/
theorem positionAdvances : Obligations.PositionAdvances := by
  refine fun i s t _ h => ⟨fun hphase => ?_, fun hphase => ?_, fun hphase => ?_⟩
  · rw [exec_check i hphase] at h
    cases h
    exact checkStep_position i _ s
  · exact runStep_position hphase (exec_run i hphase ▸ h)
  · exact commitOf_phase (exec_commit i hphase ▸ h)

/-- Settles O42: the data bytes are what follows the trigger frame's bytes and the throwaway byte; then by VARIANT. -/
theorem cycleCommits : Obligations.CycleCommits := by
  intro h m s trig meas throwaway hphase htrig hmeas hrx thp d counts t hum p
  have hmeasBytes : measBytes s.params s.rx = meas := hrx ▸ measBytes_frames throwaway meas htrig
  have hlength : s.rx.length = trigTransfers s.params + 9 := hrx ▸ rx_length_frames throwaway htrig hmeas
  rw [exec_cycle_commit h m hphase hlength, State.afterCycle, hmeasBytes, complete_ok]
  rcases variant_cases s.params.variant with hv | hv
  all_goals
    simp only [thp, hv, Status.cycleDone, if_true, reduceCtorEq, if_false]
    rfl

/-- Settles O44: CYCLE's commit names only the data bytes and the coefficients in what it writes to these registers. -/
theorem cycleRepeatable : Obligations.CycleRepeatable := by
  intro h h' m m' s s' t t' trig trig' meas x x' hphase hphase' hparams hdig htrig htrig' hmeas hrx hrx' hexec hexec'
  rw [cycleCommits h m s trig meas x hphase htrig hmeas hrx] at hexec
  rw [cycleCommits h' m' s' trig' meas x' hphase' (by rw [htrig', htrig, hparams]) hmeas hrx'] at hexec'
  cases hexec
  cases hexec'
  rw [← hdig, ← hparams]
  refine ⟨rfl, rfl, rfl, rfl, rfl, rfl, rfl, fun hthp => ?_⟩
  simp only [hthp, if_true, and_self]

/-- Settles O6: the sequencer's turn is taken, and the word in CUR_CMD decodes. -/
theorem stepRunsDecoded : Obligations.StepRunsDecoded :=
  fun _ _ _ => step_decoded

end Sys2Proof.Machine

/-! # Exceptions (spec/60_exceptions.md): the code of a check, and the ways a command completes with an error -/

namespace Sys2Proof.Machine

/-! ## The code of a check, in order of precedence (R322) -/

theorem checkCode_illFormed {p : Params} {i : Instr} (x : Status) (hi : i.wellFormed p.variant = false) :
    checkCode p i x = .illegalCmd := by
  simp [checkCode, hi]

theorem checkCode_forbidden {p : Params} {i : Instr} {x : Status} (hi : i.wellFormed p.variant = true)
    (hsession : sessionCheck p i x.session ≠ .ok) : checkCode p i x = sessionCheck p i x.session := by
  simp only [checkCode, hi, if_true]

theorem checkCode_permitted {p : Params} {i : Instr} {x : Status} (hi : i.wellFormed p.variant = true)
    (hsession : sessionCheck p i x.session = .ok) : checkCode p i x = cycleCheck i x := by
  simp only [checkCode, hi, if_true, hsession]

/-- R323's table, one row a command. -/
theorem sessionCheck_permission (p : Params) (h : BitVec 3) (m : MeasSel) (x : Session) :
    sessionCheck p .identify x = permission (.ok, .badState, .badState, if p.idRetry then .ok else .badState) x ∧
    sessionCheck p (.configure h m) x = permission (.badState, .ok, .ok, .badState) x ∧
    sessionCheck p .loadCal x = permission (.badState, .ok, .ok, .badState) x ∧
    sessionCheck p (.measure h m) x = permission (.calNotLoaded, .calNotLoaded, .ok, .badState) x ∧
    sessionCheck p (.cycle h m) x = permission (.calNotLoaded, .calNotLoaded, .ok, .badState) x ∧
    sessionCheck p .compT x = permission (.calNotLoaded, .calNotLoaded, .ok, .badState) x ∧
    sessionCheck p .compH x = permission (.calNotLoaded, .calNotLoaded, .ok, .badState) x ∧
    sessionCheck p .compP x = permission (.calNotLoaded, .calNotLoaded, .ok, .badState) x := by
  cases x <;> exact ⟨rfl, rfl, rfl, rfl, rfl, rfl, rfl, rfl⟩

/-! ## The codes a check gives -/

theorem sessionCheck_codes (p : Params) (i : Instr) (x : Session) :
    sessionCheck p i x = .ok ∨ sessionCheck p i x = .badState ∨ sessionCheck p i x = .calNotLoaded := by
  cases i with
  | identify => cases x <;> cases hretry : p.idRetry <;> simp [sessionCheck, hretry]
  | configure _ _ | loadCal | measure _ _ | compT | compH | compP | cycle _ _ => cases x <;> simp [sessionCheck]

theorem cycleCheck_codes (i : Instr) (x : Status) :
    cycleCheck i x = .ok ∨ cycleCheck i x = .noRaw ∨ cycleCheck i x = .noTfine := by
  cases i with
  | compT => cases hraw : x.rawValid <;> simp [cycleCheck, hraw]
  | compH | compP => cases htfine : x.tfineValid <;> simp [cycleCheck, htfine]
  | identify | configure _ _ | loadCal | measure _ _ | cycle _ _ => exact .inl rfl

/-- TRANSPORT and DEVICE_ABSENT come from run and commit steps only. -/
theorem checkCode_not_from_sensor (p : Params) (i : Instr) (x : Status) :
    checkCode p i x ≠ .transport ∧ checkCode p i x ≠ .deviceAbsent := by
  cases hi : i.wellFormed p.variant with
  | false => simp [checkCode_illFormed x hi]
  | true =>
    by_cases hsession : sessionCheck p i x.session = .ok
    · rw [checkCode_permitted hi hsession]
      rcases cycleCheck_codes i x with h | h | h <;> simp [h]
    · rw [checkCode_forbidden hi hsession]
      rcases sessionCheck_codes p i x.session with h | h | h <;> simp [h]

/-! ## The ways a command completes with an error -/

theorem Events.complete_error {c : Code} (x : Events) (hc : c ≠ .ok) :
    x.complete c = { x with done := true, err := true } := by
  simp [Events.complete, hc]

/-- A run step completes its command by an abort alone. -/
theorem runStep_completed {s t : State} {action : Status → Status} (hphase : s.phase ≠ .idle)
    (h : runStep action s = .next t) (hidle : t.phase = .idle) :
    ∃ env, t = abort action .transport { s with env := env } := by
  have hadvance : ∀ u : State, u.phase = s.phase → (advance u).phase ≠ .idle := by
    intro u hu
    rw [advance_phase, hu]
    split
    · exact Phase.noConfusion
    · exact hphase
  rcases runStep_inv h with rfl | rfl | ⟨out, rfl⟩
  · exact absurd hidle (hadvance _ rfl)
  · exact absurd hidle (hadvance _ rfl)
  · rcases transferStep_cases action out s with ⟨b, env, -, hstep⟩ | ⟨env, -, hstep⟩ | ⟨env, -, -, hstep⟩
    all_goals rw [hstep] at hidle
    · exact absurd hidle (hadvance _ rfl)
    · exact ⟨_, hstep⟩
    · exact absurd hidle hphase

/-- The one commit that fails is IDENTIFY's, on a chip it does not expect (R152). -/
theorem commitOf_failed {i : Instr} {s t : State} (h : commitOf i s = .next t) (herr : t.status.lastErr ≠ .ok) :
    i = .identify ∧ ∃ chip, t = complete .deviceAbsent
      { s with regs := { s.regs with chipId := chip }, status := { s.status with session := .faulted } } := by
  rcases commit_cases i s with ⟨c, u, hnext, -, -, -, -, -, rfl | ⟨-, rfl⟩⟩ | hfault
  · rw [hnext] at h
    cases h
    exact absurd rfl herr
  · simp only [commitOf, commitIdentify] at h
    split at h
    · split at h <;> cases h
      · exact absurd rfl herr
      · exact ⟨rfl, _, rfl⟩
    · cases h
  · rw [hfault] at h
    cases h

/-- A step that completes its command with an error refuses it at its check, aborts it in a transfer, or is the commit of an
IDENTIFY that does not find its device. -/
theorem exec_failed {i : Instr} {s t : State} (hphase : s.phase ≠ .idle) (h : exec i s = .next t)
    (hidle : t.phase = .idle) (herr : t.status.lastErr ≠ .ok) :
    t = complete (checkCode s.params i s.status) s ∨
    (∃ env, t = abort (abortOf i) .transport { s with env := env }) ∨
    (i = .identify ∧ ∃ chip, t = complete .deviceAbsent
      { s with regs := { s.regs with chipId := chip }, status := { s.status with session := .faulted } }) := by
  cases hp : s.phase with
  | idle => exact absurd hp hphase
  | check =>
    rw [exec_check i hp] at h
    cases h
    by_cases hcode : checkCode s.params i s.status = .ok
    · rw [checkStep_passed _ hcode] at hidle
      dsimp only at hidle
      split at hidle <;> cases hidle
    · exact .inl (checkStep_refused _ hcode)
  | run =>
    obtain ⟨env, habort⟩ := runStep_completed hphase (exec_run i hp ▸ h) hidle
    exact .inr (.inl ⟨env, hp ▸ habort⟩)
  | commit => exact .inr (.inr (commitOf_failed (exec_commit i hp ▸ h) herr))

/-! ## The obligations -/

/-- Settles O22: each of the three ways to fail, with what it writes to STATUS. -/
theorem errorsArePrecise : Obligations.ErrorsArePrecise := by
  intro i s t hphase hexec hidle herr
  rcases exec_failed hphase hexec hidle herr with rfl | ⟨env, rfl⟩ | ⟨hidentify, chip, rfl⟩
  · obtain ⟨htransport, habsent⟩ := checkCode_not_from_sensor s.params i s.status
    refine ⟨Events.complete_error _ herr, rfl, fun _ => ⟨rfl, ?_⟩, fun hcode => absurd hcode habsent⟩
    simp [htransport, Status.complete]
  · rw [abort_eq, abortOf_eq]
    refine ⟨Events.complete_error _ (by decide), rfl, fun _ => ⟨rfl, ?_⟩, fun hcode => nomatch hcode⟩
    simp [Status.complete]
  · exact ⟨Events.complete_error _ herr, rfl, fun hcode => absurd rfl hcode, fun _ => ⟨hidentify, rfl, rfl⟩⟩

/-- Settles O27: the permissions row by row, then the check in its order, then the precondition of each command. -/
theorem checkCodes : Obligations.CheckCodes := by
  refine ⟨sessionCheck_permission, fun p i x => ⟨checkCode_illFormed x, checkCode_forbidden, fun hi hsession => ?_⟩⟩
  rw [checkCode_permitted hi hsession]
  refine ⟨?_, ?_, fun hT hH hP => ?_⟩
  · rintro rfl
    rfl
  · rintro (rfl | rfl) <;> rfl
  · cases i with
    | compT => exact absurd rfl hT
    | compH => exact absurd rfl hH
    | compP => exact absurd rfl hP
    | identify | configure _ _ | loadCal | measure _ _ | cycle _ _ => rfl

end Sys2Proof.Machine

/-! # Reset (spec/70_reset_and_hazards.md): what every offset reads after it, and what it leaves outside the engine -/

namespace Sys2Proof.Machine

/-! ## What the registers read after reset (R371) -/

theorem packWord_replicate_zero (n k : Nat) : packWord (List.replicate n 0) k = 0 := by
  simp [packWord]

theorem thpOnly_zero (v : Variant) : thpOnly v 0#32 = 0#32 := ite_self 0#32

theorem Status.word_reset : Status.reset.word = 0 := by decide
theorem Events.word_reset : Events.reset.word = 0 := by decide

/-- Neither extension of a zero coefficient sets a bit. -/
theorem Coeffs.word_reset (c : Coeff) : Coeffs.reset.word c = 0#32 := by
  cases c <;> rfl

/-- After reset every register but CAPS reads 0, in both variants. -/
theorem HostReg.value_resetWith {r : HostReg} (p : Params) (e : Env) (hr : r ≠ .caps) :
    r.value (State.resetWith p e) = 0 := by
  cases r with
  | caps => exact absurd rfl hr
  | adcP | pOut => exact thpOnly_zero p.variant
  | dig c => simp [HostReg.value, State.resetWith, Regs.reset, Coeffs.word_reset, thpOnly_zero]
  | rawCal k | rawTail k | rawMeas k => exact packWord_replicate_zero _ k
  | status => exact Status.word_reset
  | events => exact Events.word_reset
  | cmd | chipId | adcT | adcH | tFine | tOut | hOut | hQ10 => rfl

theorem regAt_ne_caps : ∀ off : BitVec 8, off ≠ 0 → regAt off ≠ some .caps := by decide

theorem readOffset_resetWith (p : Params) (e : Env) (off : BitVec 8) :
    readOffset (State.resetWith p e) off = if off = 0 then capsWord p else 0 := by
  split
  · next hcaps =>
    subst hcaps
    exact readOffset_caps _
  · next hoff =>
    cases hreg : regAt off with
    | none => exact readOffset_of_unmapped hreg
    | some r =>
      rw [readOffset_of_regAt hreg]
      refine HostReg.value_resetWith p e ?_
      rintro rfl
      exact regAt_ne_caps off hoff hreg

/-! ## What a reset turn does (R370, R373) -/

theorem step_reset {s : State} {turns : List Turn} (h : s.env.schedule = .reset :: turns) :
    step s = .next (platformReset { s with env := { s.env with schedule := turns } }) := step_placed h

theorem Sensor.deselect_comp_deselect : Sensor.deselect ∘ Sensor.deselect = Sensor.deselect := rfl

/-! ## The obligations -/

/-- Settles O12: CAPS at offset 0 and no other register but at its reset value; the default build by computation; the
sequencer is idle, so by the invariant it holds nothing of a command. -/
theorem resetReads : Obligations.ResetReads :=
  ⟨readOffset_resetWith, by decide, fun p e => ⟨rfl, rfl, (State.inv_resetWith p e).quiet (.inl rfl)⟩⟩

/-- Settles O13: by whether chip select is held, which is all that decides what stands outside the engine. -/
theorem resetAbandonsCommand : Obligations.ResetAbandonsCommand := by
  intro s turns hschedule
  refine ⟨_, step_reset hschedule, rfl, ?_⟩
  cases s.cs <;> simp [Sensor.deselect_comp_deselect]

/-- Settles O17: the reset of a build meets the invariant, and the default build is one of them. -/
theorem resetMeetsInvariant : Obligations.ResetMeetsInvariant :=
  ⟨State.inv_resetWith _ _, State.inv_resetWith⟩

end Sys2Proof.Machine
